-- ==== Sys2Proof/Config.lean ====
section
/-! DEFINITION. The parameters of 00_scope.md R7 and the values that 93_implementation_defined.md Part 1 leaves
open. An open value is an opaque constant: nothing can be proved of it, so a claim holds whatever it is. -/

namespace Sys2Proof

/-- Which characters a Track2-family decoder feeds to its checksum (R7 `T2_LRC_SPAN`, 90_conflicts.md C1). -/
inductive LrcSpan where
  /-- Start sentinel up to, not including, the end sentinel: the spec's value. -/
  | exclEs
  /-- Through the end sentinel: the source's literal text, kept as the other value. -/
  | inclEs
deriving DecidableEq, Repr

/-- `XLEN`: width of every host-visible register and of the host data bus (R7, D2); `Word` has this width. -/
@[simp] abbrev Config.xlen : Nat := 32

/-- `N_FB`: bytes in the frame buffer (R7, U8; log 13). -/
def Config.nFB : Nat := 256

/-- `N_FL`: descriptors in the format list (R7, U8; log 13). -/
def Config.nFL : Nat := 16

/-- `N_OUT`: characters in the output buffer (R7, U8; log 13). -/
def Config.nOUT : Nat := 2048

/-- `T2_LRC_SPAN` at the spec's value (R7, U7; log 12). -/
def Config.t2LrcSpan : LrcSpan := .exclEs

/-- `P_EMPTY_ATTEMPTED`: any 32-bit value (R7, U5; log 10). -/
opaque Config.emptyAttempted : BitVec Config.xlen

/-- FREE VALUE: what a byte of FB that the host has not written since reset holds (R45, U2; log 7).
First argument: the draw made at reset; second: the byte's index. -/
opaque Config.unwrittenFB : Nat → Nat → BitVec 8

/-- FREE VALUE: what a word of FL that the host has not written since reset holds (R45, U2; log 7). -/
opaque Config.unwrittenFL : Nat → Nat → BitVec Config.xlen

/-- FREE VALUE: an element of OUT outside the valid string (R33, U1; log 8).
First argument: the draw made when OUT last changed; second: the element's index. -/
opaque Config.unspecifiedOUT : Nat → Nat → BitVec 8

/-- FREE VALUE: what a host read returns while BUSY = 1 (R330, U3; log 9).
First argument: the draw; second: the word address. -/
opaque Config.busyRead : Nat → Nat → BitVec Config.xlen

/-- FREE VALUE: which of the 254 characters other than `0` and `1` is `DELIM` (R7, R132, U6; log 11). -/
opaque Config.delimIndex : Fin 254

end Sys2Proof
end

