-- ==== Sys2Proof/Word.lean ====
section
/-! DEFINITION. The two word sizes of MSD: the register word, `XLEN` bits wide (00_scope.md R7), and the 8-bit
byte of the frame buffer, of a character code and of a stream window (20_memory.md R61, R67; 00_scope.md R11). -/

namespace Sys2Proof

/-- A word of the register space and of the format list (R7, R90, R98). Its width is the parameter `XLEN`. -/
abbrev Word := BitVec Config.xlen

/-- A byte of FB, a character code of OUT, the value of a stream window of up to 8 bits (R11, R32, R67). -/
abbrev Byte := BitVec 8

end Sys2Proof
end

