-- ==== Sys2Proof/Syntax.lean ====
section
/-! DEFINITION. The instructions of MSD-1: the twelve commands (30_encoding.md R91) and the eleven descriptors
(R100), one constructor per row of spec/opcode_table.json. A command's operands are in ARG0 and ARG1 (R90, R92),
not in its word, so a command's constructor has no argument. -/

namespace Sys2Proof

/-- A parity mode (41_primitives.md R157; codes 0, 1, 2 of R92 and R98). -/
inductive ParityMode where
  | none
  | odd
  | even
deriving DecidableEq, Repr

/-- FormatSpec, the payload of Custom (R102), with every bit of its word that carries meaning (R98): a
sentinel's value is kept also where its valid bit is 0, since MATCH_FMT shows the whole word (44_custom.md R248). -/
structure FormatSpec where
  /-- `BPC`, 0 to 15 as written (R98); only 1 to 8 pass the decoder's own check (R240). -/
  bitsPerChar : Nat
  /-- `LSBF`: exLSB when set, exMSB when clear. -/
  lsbFirst : Bool
  /-- `PAR`. -/
  parity : ParityMode
  /-- `INV`. -/
  inverted : Bool
  /-- `SSV`: a start sentinel is configured. -/
  startValid : Bool
  /-- `ESV`: an end sentinel is configured. -/
  endValid : Bool
  /-- `SS`. -/
  startSentinel : Byte
  /-- `ES`. -/
  endSentinel : Byte
deriving DecidableEq, Repr

/-- The 23 instructions: commands (fetched from CMD) and descriptors (fetched from FL). -/
inductive Instr where
  | nop
  | bsNew
  | extractLsb
  | extractMsb
  | invert
  | checkParity
  | lrcClr
  | lrcPush
  | lrcFinT2
  | lrcFinT1
  | decodeOne
  | decodeList
  | track1
  | track1Inv
  | track2
  | track2Inv
  | track2Msb
  | track2Lsb
  | track2Raw
  | track2Swp
  | track2Even
  | track3
  | custom (f : FormatSpec)
deriving DecidableEq, Repr

end Sys2Proof
end

