-- ==== Sys2Proof/WellFormed.lean ====
section
/-! DEFINITION. Which instruction terms a word can stand for. Every field of an instruction but `bits_per_char` has
a type that holds exactly the values its bits can have; `bits_per_char` is a count, and its field has four bits. -/

namespace Sys2Proof

/-- "a width above 15 cannot be written at all" (30_encoding.md R99). -/
def FormatSpec.wellFormed (f : FormatSpec) : Bool := decide (f.bitsPerChar < 16)

/-- A command (fetched from CMD, R91), as against a descriptor (fetched from FL, R100). -/
def Instr.isCommand : Instr → Bool
  | .nop => true
  | .bsNew => true
  | .extractLsb => true
  | .extractMsb => true
  | .invert => true
  | .checkParity => true
  | .lrcClr => true
  | .lrcPush => true
  | .lrcFinT2 => true
  | .lrcFinT1 => true
  | .decodeOne => true
  | .decodeList => true
  | .track1 => false
  | .track1Inv => false
  | .track2 => false
  | .track2Inv => false
  | .track2Msb => false
  | .track2Lsb => false
  | .track2Raw => false
  | .track2Swp => false
  | .track2Even => false
  | .track3 => false
  | .custom _ => false

/-- An instruction that some word encodes. -/
def Instr.wellFormed : Instr → Bool
  | .nop => true
  | .bsNew => true
  | .extractLsb => true
  | .extractMsb => true
  | .invert => true
  | .checkParity => true
  | .lrcClr => true
  | .lrcPush => true
  | .lrcFinT2 => true
  | .lrcFinT1 => true
  | .decodeOne => true
  | .decodeList => true
  | .track1 => true
  | .track1Inv => true
  | .track2 => true
  | .track2Inv => true
  | .track2Msb => true
  | .track2Lsb => true
  | .track2Raw => true
  | .track2Swp => true
  | .track2Even => true
  | .track3 => true
  | .custom f => f.wellFormed

end Sys2Proof
end

