-- ==== Sys2Proof/Decode.lean ====
section
/-! DEFINITION. Decoding and encoding of the two instruction spaces (30_encoding.md R90 to R104). A 32-bit word is a
command when it is fetched from CMD and a descriptor when it is fetched from FL; the spaces overlap as numbers
(log 1), so there is one decoder for each. Both are total and reject by name. -/

namespace Sys2Proof

/-- Why a word is no instruction. -/
inductive DecodeReject where
  /-- CMD bits 31:8 are not zero (R90): refused with REJ_CODE 1. -/
  | reservedCommandBits
  /-- OPC is none of the twelve of R91: refused with REJ_CODE 1. -/
  | unknownOpcode
  /-- TAG is 11 to 15 (R104): refused with REJ_CODE 3. -/
  | unknownTag
  /-- A named profile with a bit of 31:4 set, or a Custom with bit 15 or 14 set (R104): REJ_CODE 3. -/
  | reservedDescriptorBits
  /-- A Custom with PAR = 3 (R104): REJ_CODE 3. -/
  | illegalParity
deriving DecidableEq, Repr

/-- The operation an OPC names (R91). -/
def commandOfOpcode (opc : Byte) : Option Instr :=
  match opc with
  | 0x00#8 => some .nop
  | 0x01#8 => some .bsNew
  | 0x10#8 => some .extractLsb
  | 0x11#8 => some .extractMsb
  | 0x12#8 => some .invert
  | 0x13#8 => some .checkParity
  | 0x18#8 => some .lrcClr
  | 0x19#8 => some .lrcPush
  | 0x1A#8 => some .lrcFinT2
  | 0x1B#8 => some .lrcFinT1
  | 0x20#8 => some .decodeOne
  | 0x21#8 => some .decodeList
  | _ => none

/-- The command a word written to CMD encodes (R90, R91). -/
def decodeCommand (c : Word) : Except DecodeReject Instr :=
  if c.extractLsb' 8 24 ≠ 0 then .error .reservedCommandBits
  else
    match commandOfOpcode (c.extractLsb' 0 8) with
    | some i => .ok i
    | none => .error .unknownOpcode

/-- The named profile a TAG of 0 to 9 selects (R100). -/
def profileOfTag (tag : BitVec 4) : Option Instr :=
  match tag with
  | 0#4 => some .track1
  | 1#4 => some .track1Inv
  | 2#4 => some .track2
  | 3#4 => some .track2Inv
  | 4#4 => some .track2Msb
  | 5#4 => some .track2Lsb
  | 6#4 => some .track2Raw
  | 7#4 => some .track2Swp
  | 8#4 => some .track2Even
  | 9#4 => some .track3
  | _ => none

/-- The parity mode of a two-bit code; code 3 is illegal (R92, R98). -/
def parityOfCode (p : BitVec 2) : Option ParityMode :=
  match p with
  | 0#2 => some .none
  | 1#2 => some .odd
  | 2#2 => some .even
  | _ => none

/-- The fields of a DESC-C word, "read as an unsigned number from its bits" (R99). -/
def formatSpecOf (d : Word) (par : ParityMode) : FormatSpec where
  bitsPerChar := (d.extractLsb' 4 4).toNat
  lsbFirst := d.getLsbD 8
  parity := par
  inverted := d.getLsbD 11
  startValid := d.getLsbD 12
  endValid := d.getLsbD 13
  startSentinel := d.extractLsb' 16 8
  endSentinel := d.extractLsb' 24 8

/-- The Custom descriptor of a word whose TAG is 10 (R98, R104). -/
def decodeCustomWord (d : Word) : Except DecodeReject Instr :=
  if d.extractLsb' 14 2 ≠ 0 then .error .reservedDescriptorBits
  else
    match parityOfCode (d.extractLsb' 9 2) with
    | some par => .ok (.custom (formatSpecOf d par))
    | none => .error .illegalParity

/-- The descriptor a word of FL encodes (R98 to R100, R104). -/
def decodeDescriptor (d : Word) : Except DecodeReject Instr :=
  if d.extractLsb' 0 4 = 10 then decodeCustomWord d
  else
    match profileOfTag (d.extractLsb' 0 4) with
    | none => .error .unknownTag
    | some i => if d.extractLsb' 4 28 ≠ 0 then .error .reservedDescriptorBits else .ok i

/-- A descriptor is legal when it names a Format (R104). -/
def legalDescriptor (d : Word) : Bool :=
  match decodeDescriptor d with
  | .ok _ => true
  | .error _ => false

/-- The two-bit code of a parity mode (R92, R98). -/
def ParityMode.code : ParityMode → BitVec 2
  | .none => 0
  | .odd => 1
  | .even => 2

/-- A field of a word, its low bit at bit `k` of the word, every other bit 0. -/
def fieldAt {n : Nat} (k : Nat) (x : BitVec n) : Word := x.setWidth Config.xlen <<< k

/-- The DESC-C word of a FormatSpec (R98): ES, SS, ESV, SSV, INV, PAR, LSBF, BPC and TAG = 10, bits 15:14 zero. -/
def FormatSpec.encode (f : FormatSpec) : Word :=
  fieldAt 24 f.endSentinel ||| fieldAt 16 f.startSentinel ||| fieldAt 13 (BitVec.ofBool f.endValid) |||
    fieldAt 12 (BitVec.ofBool f.startValid) ||| fieldAt 11 (BitVec.ofBool f.inverted) |||
    fieldAt 9 f.parity.code ||| fieldAt 8 (BitVec.ofBool f.lsbFirst) |||
    fieldAt 4 (BitVec.ofNat 4 f.bitsPerChar) ||| 10

/-- The word of an instruction in its own space (R91, R98, R100). -/
def encode : Instr → Word
  | .nop => 0x00000000
  | .bsNew => 0x00000001
  | .extractLsb => 0x00000010
  | .extractMsb => 0x00000011
  | .invert => 0x00000012
  | .checkParity => 0x00000013
  | .lrcClr => 0x00000018
  | .lrcPush => 0x00000019
  | .lrcFinT2 => 0x0000001A
  | .lrcFinT1 => 0x0000001B
  | .decodeOne => 0x00000020
  | .decodeList => 0x00000021
  | .track1 => 0x00000000
  | .track1Inv => 0x00000001
  | .track2 => 0x00000002
  | .track2Inv => 0x00000003
  | .track2Msb => 0x00000004
  | .track2Lsb => 0x00000005
  | .track2Raw => 0x00000006
  | .track2Swp => 0x00000007
  | .track2Even => 0x00000008
  | .track3 => 0x00000009
  | .custom f => f.encode

/-- The 32-bit word of a table row's bits: all words of MSD-1 are one 32-bit word (R107), the bits above `nbits` zero. -/
def tableWord (nbits w : Nat) : Word := BitVec.ofNat Config.xlen (w % 2 ^ nbits)

/-- The instruction a bare word stands for when its place is not known: the command of R91 if there is one, else the
descriptor. DESIGN CHOICE (log 1): the words of TRACK1, TRACK1_INV and `CUSTOM w=1` are also commands. -/
def decodeTableWord (nbits w : Nat) : Option Instr :=
  match decodeCommand (tableWord nbits w) with
  | .ok i => some i
  | .error _ =>
    match decodeDescriptor (tableWord nbits w) with
    | .ok i => some i
    | .error _ => none

end Sys2Proof
end

