-- ==== Sys2Proof/Machine/State.lean ====
section
/-! DEFINITION. The state of MSD (10_state.md), plain data: the spec's registers and arrays, the stage of the running
command, and five fields of the model's own (the environment's schedule, the host's read data, the free-value draws). -/

namespace Sys2Proof.Machine

/-- An error a command can end with, with its payload (60_exceptions.md R281). -/
inductive Err where
  | noFormatsProvided
  | noValidFormat (attempted : Word)
  | bitstreamTooShort (actual required : Nat)
  | parityError (index : Nat)
  | invalidStartSentinel
  | invalidEndSentinel
  | checksumFailed
  | invalidCharacter (index value : Nat)
  | invalidCustomFormat (reason : Nat)
  | lengthMismatch (required provided : Nat)
  | outOfRange
deriving DecidableEq, Repr

/-- Where the engine is in the life of a command (45_orchestrator.md R265). -/
inductive Phase where
  /-- No command runs: BUSY = 0. -/
  | idle
  /-- A CMD write of this word was accepted and the prologue is done; the checks and the body come next. -/
  | command (c : Word)
  /-- DECODE_ONE passed its checks; the attempt of `FL[ARG0]` comes next (R262). -/
  | one
  /-- DECODE_LIST runs with the format counter FPC at this value (10_state.md R40; R263 line 5 comes next). -/
  | list (fpc : Nat)
deriving DecidableEq, Repr

/-- One access of the host to the register space, at a word address (10_state.md R34, 20_memory.md R68). -/
inductive HostAccess where
  | read (addr : Nat)
  | write (addr : Nat) (data : Word)
deriving DecidableEq, Repr

/-- One turn of the environment's schedule (log 3). -/
inductive Input where
  /-- The host makes one access. -/
  | host (a : HostAccess)
  /-- The engine moves. -/
  | engine
  /-- Reset is asserted (70_reset_and_hazards.md R320, R321). -/
  | reset
deriving DecidableEq, Repr

/-- A sparse array: the elements written since reset, by index, in strictly rising order, each once.
An index that is not listed has no value here; the accessors of Machine/Ops.lean say what it reads as. -/
abbrev Memory (α : Type) := List (Nat × α)

/-- The machine. -/
structure State where
  /-- R21. -/
  arg0 : Word
  /-- R21. -/
  arg1 : Word
  /-- R22. -/
  res : Word
  /-- STATUS.DONE (R24). -/
  done : Bool
  /-- STATUS.OK (R24). -/
  ok : Bool
  /-- STATUS.REJ (R24). -/
  rej : Bool
  /-- STATUS.REJ_CODE (R24). -/
  rejCode : BitVec 8
  /-- R25. -/
  errKind : Word
  /-- R25. -/
  errInfo0 : Word
  /-- R25. -/
  errInfo1 : Word
  /-- R26. -/
  sbits : Word
  /-- R26. -/
  slen : Word
  /-- R27. -/
  flen : Word
  /-- R28. -/
  matchIdx : Word
  /-- R28. -/
  matchFmt : Word
  /-- R29. -/
  outLen : Word
  /-- R30. -/
  lrcAcc : Byte
  /-- FL: the descriptors written since reset (R31). -/
  fl : Memory Word
  /-- FB: the bytes written since reset (R32). -/
  fb : List Host.Cell
  /-- OUT[0 .. OUT_LEN-1]: the decoded string (R33). -/
  out : List Byte
  /-- CMD, STATUS.BUSY and FPC: the stage of the running command (R23, R24, R40). -/
  phase : Phase
  /-- MODEL: the environment's schedule (log 3). -/
  inputs : List Input
  /-- MODEL: the word the last host read returned (log 5). -/
  readData : Word
  /-- MODEL: the next unused draw of a free value (log 6). -/
  draws : Nat
  /-- MODEL: the draw that gave FB and FL their contents at reset (log 6, 7). -/
  resetDraw : Nat
  /-- MODEL: the draw that gave OUT its unspecified elements (log 6, 8). -/
  outDraw : Nat
deriving DecidableEq, Repr

/-- The machine stops with a fault. -/
inductive Fault where
  /-- Raised by the engine's descriptor fetch when the index is at or above N_FL, where FL has no word (R31, R34).
  No run reaches it: DECODE_ONE and DECODE_LIST refuse such an index or FLEN first (R291). Safe (log 15). -/
  | noSuchDescriptor (index : Nat)
deriving DecidableEq, Repr

/-- The model has no meaning for the instruction. -/
inductive Refusal where
  /-- An instruction whose meaning is not written yet. Raised by no arm of `exec`: all 23 have their meaning. Safe. -/
  | notModelled (mnemonic : String)
deriving DecidableEq, Repr

/-- The machine right after reset (R45, R320). FB, FL and OUT hold unspecified values: nothing is listed, and
`resetDraw`, `outDraw` name the draw that fixes what they read as. The five MODEL fields' values are
DESIGN CHOICES (log 3, 5, 6). -/
def State.reset : State where
  arg0 := 0
  arg1 := 0
  res := 0
  done := false
  ok := false
  rej := false
  rejCode := 0
  errKind := 0
  errInfo0 := 0
  errInfo1 := 0
  sbits := 0
  slen := 0
  flen := 0
  matchIdx := 0xFFFFFFFF
  matchFmt := 0
  outLen := 0
  lrcAcc := 0
  fl := []
  fb := []
  out := []
  phase := .idle
  inputs := []
  readData := 0
  draws := 1
  resetDraw := 0
  outDraw := 0

end Sys2Proof.Machine
end

