-- ==== Sys2Proof/Machine/Ops.lean ====
section
/-! DEFINITION. The named operations over the arrays and registers: sparse memory, what an unwritten element reads as,
the prologue and the three ends of a command (45_orchestrator.md R266, R267). An abnormal end (60_exceptions.md R302)
is the spec's only "exception"; there is no return from it (R303): the next prologue clears its record. -/

namespace Sys2Proof.Machine

/-- The element at an index, if one is listed. -/
def Memory.read {α : Type} : Memory α → Nat → Option α
  | [], _ => none
  | (k, v) :: m, i => if i = k then some v else Memory.read m i

/-- Store an element, keeping the indices strictly rising. -/
def Memory.write {α : Type} : Memory α → Nat → α → Memory α
  | [], i, v => [(i, v)]
  | (k, w) :: m, i, v =>
    if i < k then (i, v) :: (k, w) :: m
    else if i = k then (i, v) :: m
    else (k, w) :: Memory.write m i v

/-- The canonical form: indices strictly rising, all below the array's size. An unlisted index has no value in the
list, so no entry can equal what an unlisted index reads as. -/
def Memory.wf {α : Type} (size : Nat) (m : Memory α) : Bool :=
  decide (m.Pairwise fun a b => a.1 < b.1) && m.all fun e => decide (e.1 < size)

/-- `FB[i]` (R32, R61): a byte never written since reset reads as the free value drawn then (R45, U2; log 7). -/
def State.fbByte (s : State) (i : Nat) : Byte :=
  (Memory.read s.fb i).getD (Config.unwrittenFB s.resetDraw i)

/-- `FL[i]` (R31): a word never written since reset reads as the free value drawn then (R45, U2; log 7). -/
def State.flWord (s : State) (i : Nat) : Word :=
  (Memory.read s.fl i).getD (Config.unwrittenFL s.resetDraw i)

/-- `OUT[i]` (R33): outside the valid string a free value (U1; log 8). -/
def State.outByte (s : State) (i : Nat) : Byte :=
  s.out[i]?.getD (Config.unspecifiedOUT s.outDraw i)

/-- Move the engine to a stage of the command's life (R265, R40). -/
def State.setPhase (s : State) (p : Phase) : State := { s with phase := p }

/-- The prologue of an accepted CMD write (R266), but for BUSY, which is the phase. -/
def State.prologue (s : State) : State :=
  { s with
    done := false, ok := false, rej := false, rejCode := 0
    res := 0, errKind := 0, errInfo0 := 0, errInfo1 := 0 }

/-- A CMD write accepted: the prologue, then BUSY = 1 with the word waiting for its checks (R265, R266). -/
def State.acceptCommand (s : State) (c : Word) : State := s.prologue.setPhase (.command c)

/-- The code of an error kind, the value of ERR_KIND (R281). -/
def Err.code : Err → Word
  | .noFormatsProvided => 1
  | .noValidFormat _ => 2
  | .bitstreamTooShort _ _ => 3
  | .parityError _ => 4
  | .invalidStartSentinel => 5
  | .invalidEndSentinel => 6
  | .checksumFailed => 7
  | .invalidCharacter _ _ => 8
  | .invalidCustomFormat _ => 9
  | .lengthMismatch _ _ => 16
  | .outOfRange => 17

/-- The first payload of an error, 0 where the kind has none (R281). -/
def Err.info0 : Err → Word
  | .noFormatsProvided => 0
  | .noValidFormat attempted => attempted
  | .bitstreamTooShort actual _ => BitVec.ofNat Config.xlen actual
  | .parityError index => BitVec.ofNat Config.xlen index
  | .invalidStartSentinel => 0
  | .invalidEndSentinel => 0
  | .checksumFailed => 0
  | .invalidCharacter index _ => BitVec.ofNat Config.xlen index
  | .invalidCustomFormat reason => BitVec.ofNat Config.xlen reason
  | .lengthMismatch required _ => BitVec.ofNat Config.xlen required
  | .outOfRange => 0

/-- The second payload of an error, 0 where the kind has none (R281). -/
def Err.info1 : Err → Word
  | .noFormatsProvided => 0
  | .noValidFormat _ => 0
  | .bitstreamTooShort _ required => BitVec.ofNat Config.xlen required
  | .parityError _ => 0
  | .invalidStartSentinel => 0
  | .invalidEndSentinel => 0
  | .checksumFailed => 0
  | .invalidCharacter _ value => BitVec.ofNat Config.xlen value
  | .invalidCustomFormat _ => 0
  | .lengthMismatch _ provided => BitVec.ofNat Config.xlen provided
  | .outOfRange => 0

/-- The epilogue of a success (R267); RES holds the value the command returns, 0 when it returns none (R22). -/
def State.endOk (s : State) (result : Word) : State :=
  { s with
    phase := .idle, done := true, ok := true, rej := false, rejCode := 0
    errKind := 0, errInfo0 := 0, errInfo1 := 0, res := result }

/-- The epilogue of an error (R267, R302). -/
def State.endError (s : State) (e : Err) : State :=
  { s with
    phase := .idle, done := true, ok := false, rej := false, rejCode := 0
    errKind := e.code, errInfo0 := e.info0, errInfo1 := e.info1, res := 0 }

/-- The epilogue of a refusal: STATUS and a cleared record, "no other state changes" (R267, R290). -/
def State.endRefused (s : State) (code : BitVec 8) : State :=
  { s with
    phase := .idle, done := true, ok := false, rej := true, rejCode := code
    errKind := 0, errInfo0 := 0, errInfo1 := 0, res := 0 }

/-- Write SBITS and SLEN (R26). -/
def State.setStream (s : State) (bits bytes : Word) : State := { s with sbits := bits, slen := bytes }

/-- Write LRCACC (R30). -/
def State.setLrcAcc (s : State) (v : Byte) : State := { s with lrcAcc := v }

/-- What a successful decode command writes besides the epilogue: the string, OUT_LEN, MATCH_IDX, MATCH_FMT
(R262, R263 lines 9 and 10). The rest of OUT is drawn anew (R33, U1; log 8). -/
def State.recordMatch (s : State) (idx fmt : Word) (str : List Byte) : State :=
  { s with
    out := str, outLen := BitVec.ofNat Config.xlen str.length, matchIdx := idx, matchFmt := fmt
    outDraw := s.draws, draws := s.draws + 1 }

/-- What a failed decode command writes besides the epilogue (R262, R263 lines 2 and 13, R270). All of OUT is
drawn anew (U1; log 8). -/
def State.recordNoMatch (s : State) : State :=
  { s with
    out := [], outLen := 0, matchIdx := 0xFFFFFFFF, matchFmt := 0
    outDraw := s.draws, draws := s.draws + 1 }

/-- Store a byte of FB; the stream collapses to the empty one (R70). -/
def State.writeFB (s : State) (i : Nat) (b : Byte) : State :=
  ({ s with fb := Memory.write s.fb i b } : State).setStream 0 0

/-- Store a word of FL (R31). -/
def State.writeFL (s : State) (i : Nat) (d : Word) : State := { s with fl := Memory.write s.fl i d }

/-- Reset (R45, R320): every piece of the block's state at its reset value, FB, FL and OUT drawn anew. A running
command is abandoned (R321). What is not the block's stays: the rest of the schedule and the host's read data. -/
def State.hostReset (s : State) : State :=
  { State.reset with
    inputs := s.inputs, readData := s.readData
    resetDraw := s.draws, outDraw := s.draws, draws := s.draws + 1 }

end Sys2Proof.Machine
end

