-- ==== Sys2Proof/Machine/Operands.lean ====
section
/-! DEFINITION. The operand forms of the commands (30_encoding.md R92): each reads ARG0 and ARG1 and answers the operands, or
none when one is outside the command's domain, which refuses the command with REJ_CODE 2 (60_exceptions.md R291).
"Each field is an unsigned number, used as is: nothing is sign-extended, scaled or shifted." -/

namespace Sys2Proof.Machine

/-- REJ_CODE of a word that is no command (R291). -/
def rejOpcode : BitVec 8 := 1

/-- REJ_CODE of an operand outside the command's domain (R291). -/
def rejOperand : BitVec 8 := 2

/-- REJ_CODE of an illegal descriptor (R291). -/
def rejDescriptor : BitVec 8 := 3

/-- BS_NEW: `provided_bytes` and `bit_count`; refused when `provided_bytes > N_FB`. -/
def bsNewOperands (s : State) : Option (Nat × Nat) :=
  if s.arg0.toNat > Config.nFB then none else some (s.arg0.toNat, s.arg1.toNat)

/-- EXTRACT_LSB, EXTRACT_MSB: `offset` and `width`; refused when ARG1[31:4] is not 0 or `width > 8`. -/
def extractOperands (s : State) : Option (Nat × Nat) :=
  if s.arg1.extractLsb' 4 28 ≠ 0 then none
  else if (s.arg1.extractLsb' 0 4).toNat > 8 then none
  else some (s.arg0.toNat, (s.arg1.extractLsb' 0 4).toNat)

/-- INVERT and LRC_PUSH: one byte in ARG0[7:0]; refused when ARG0[31:8] is not 0. -/
def byteOperand (s : State) : Option Byte :=
  if s.arg0.extractLsb' 8 24 ≠ 0 then none else some (s.arg0.extractLsb' 0 8)

/-- CHECK_PARITY: `value`, `width` and `mode`; refused when ARG0[31:8] or ARG1[31:6] is not 0, `width > 8` or
`mode = 3`; the mode numbers are those of the descriptor's PAR (D32). -/
def checkParityOperands (s : State) : Option (Byte × Nat × ParityMode) :=
  match byteOperand s with
  | none => none
  | some value =>
    if s.arg1.extractLsb' 6 26 ≠ 0 then none
    else if (s.arg1.extractLsb' 0 4).toNat > 8 then none
    else
      match parityOfCode (s.arg1.extractLsb' 4 2) with
      | none => none
      | some mode => some (value, (s.arg1.extractLsb' 0 4).toNat, mode)

/-- DECODE_ONE: `index`; refused unless `FLEN <= N_FL` and `index < FLEN`. -/
def decodeOneOperand (s : State) : Option Nat :=
  if s.flen.toNat > Config.nFL then none
  else if s.arg0.toNat ≥ s.flen.toNat then none
  else some s.arg0.toNat

/-- DECODE_LIST: the length of the list; refused when `FLEN > N_FL`. -/
def decodeListLength (s : State) : Option Nat :=
  if s.flen.toNat > Config.nFL then none else some s.flen.toNat

end Sys2Proof.Machine
end

