-- ==== Sys2Proof/Machine/BitStream.lean ====
section
/-! DEFINITION. The BitStream family: BS_NEW (40_bitstream.md R130). -/

namespace Sys2Proof.Machine

/-- `required_bytes = ceil(bit_count / 8)`, in natural arithmetic (R130, 00_scope.md R8). -/
def requiredBytes (bitCount : Nat) : Nat := (bitCount + 7) / 8

/-- The body of BS_NEW (R130): a failed construction leaves the empty stream. -/
def constructStream (provided bitCount : Nat) (s : State) : State :=
  if requiredBytes bitCount > provided then
    (s.setStream 0 0).endError (.lengthMismatch (requiredBytes bitCount) provided)
  else
    (s.setStream (BitVec.ofNat Config.xlen bitCount) (BitVec.ofNat Config.xlen (requiredBytes bitCount))).endOk 0

/-- BS_NEW (R130). -/
def execBsNew (s : State) : Host.Outcome State Fault Refusal :=
  match bsNewOperands s with
  | none => .next (s.endRefused rejOperand)
  | some (provided, bitCount) => .next (constructStream provided bitCount s)

end Sys2Proof.Machine
end

