-- ==== Sys2Proof/Machine/Bits.lean ====
section
/-! DEFINITION. Bit operations on window values and character codes (00_scope.md R9, 41_primitives.md R155, R157). -/

namespace Sys2Proof.Machine

/-- The number of one bits (R9). -/
def popcount (v : Byte) : Nat := (List.range 8).countP fun k => v.getLsbD k

/-- `2^w - 1`, the mask of a `w`-bit value, for `w` up to 8 (R155, R157). -/
def widthMask (w : Nat) : Byte := BitVec.ofNat 8 (2 ^ w - 1)

/-- `rev5`: bit `k` of a 5-bit value goes to bit `4 - k` (R9). -/
def rev5 (v : Byte) : Byte := (v.extractLsb' 0 5).reverse.setWidth 8

/-- `invert`: the complement within 8 bits (R155). -/
def invertByte (b : Byte) : Byte := b ^^^ 0xFF#8

/-- `inv_W`: the complement of a `w`-bit value within its width (R155). -/
def invertWidth (w : Nat) (v : Byte) : Byte := v ^^^ widthMask w

/-- `parity_ok`: the count of ones among the low `w` bits is odd, even, or anything (R157). -/
def parityOk (v : Byte) (w : Nat) (m : ParityMode) : Bool :=
  match m with
  | .none => true
  | .odd => popcount (v &&& widthMask w) % 2 == 1
  | .even => popcount (v &&& widthMask w) % 2 == 0

/-- The Track2 fix-up: flip bit 4 when the low five bits have odd weight (R160, R164). -/
def lrcFixT2 (acc : Byte) : Byte :=
  if popcount (acc &&& 0x1F#8) % 2 = 1 then (acc &&& 0x1F#8) ^^^ 0x10#8 else acc &&& 0x1F#8

/-- The Track1 fix-up: set bit 6 when the low six bits have even weight (R161, R165). -/
def lrcFixT1 (acc : Byte) : Byte :=
  if popcount (acc &&& 0x3F#8) % 2 = 0 then (acc &&& 0x3F#8) ||| 0x40#8 else acc &&& 0x3F#8

/-- `lrcT2`: the XOR of the low five bits of the characters, fixed up (R160). -/
def lrcT2 (chars : List Byte) : Byte :=
  lrcFixT2 (chars.foldl (fun x c => x ^^^ (c &&& 0x1F#8)) 0)

/-- `lrcT1`: the XOR of the low six bits of the characters, fixed up (R161). -/
def lrcT1 (chars : List Byte) : Byte :=
  lrcFixT1 (chars.foldl (fun x c => x ^^^ (c &&& 0x3F#8)) 0)

end Sys2Proof.Machine
end

