-- ==== Sys2Proof/Machine/Stream.lean ====
section
/-! DEFINITION. The BitStream (40_bitstream.md R131 to R133), the bit order and MemRead (20_memory.md R62 to R66), the two
window assemblies (41_primitives.md R150, R152) and the diagnostic rendering (R132). -/

namespace Sys2Proof.Machine

/-- The stream a decoder reads: the bytes, by index, and the number of valid bits (R133). -/
structure Stream where
  /-- The byte at an index of FB. -/
  byte : Nat → Byte
  /-- SBITS. -/
  bitCount : Nat

/-- The current stream `(FB[0..SLEN-1], SBITS)` (R133). -/
def State.stream (s : State) : Stream := ⟨s.fbByte, s.sbits.toNat⟩

/-- Stream bit `i` is bit `7 - (i mod 8)` of byte `i div 8` (R62). -/
def Stream.bit (st : Stream) (i : Nat) : Bool := (st.byte (i / 8)).getLsbD (7 - i % 8)

/-- The bits at offsets `o` to `o + w - 1`, in that order. -/
def Stream.bits (st : Stream) (o w : Nat) : List Bool := (List.range w).map fun k => st.bit (o + k)

/-- `MemRead(o, w)`: those bits, or OutOfRange (`none`) when `o + w > SBITS` (R64). -/
def memRead (st : Stream) (o w : Nat) : Option (List Bool) :=
  if o + w > st.bitCount then none else some (st.bits o w)

/-- A list of bits as a number, the first bit being bit 0 (R150). -/
def bitsLsbFirst (l : List Bool) : Nat := l.foldr (fun b acc => b.toNat + 2 * acc) 0

/-- A list of bits as a number, the first bit being the top one (R152). -/
def bitsMsbFirst (l : List Bool) : Nat := l.foldl (fun acc b => 2 * acc + b.toNat) 0

/-- `exLSB(o, w)` (R150), for widths 0 to 8. -/
def exLsb (st : Stream) (o w : Nat) : Option Byte :=
  (memRead st o w).map fun l => BitVec.ofNat 8 (bitsLsbFirst l)

/-- `exMSB(o, w)` (R152), for widths 0 to 8. -/
def exMsb (st : Stream) (o w : Nat) : Option Byte :=
  (memRead st o w).map fun l => BitVec.ofNat 8 (bitsMsbFirst l)

/-- `exLSB` of a window that a decoder has already found in range ("every extraction is guarded by a length test",
60_exceptions.md R294). -/
def Stream.windowLsb (st : Stream) (o w : Nat) : Byte := BitVec.ofNat 8 (bitsLsbFirst (st.bits o w))

/-- `exMSB` of a window that a decoder has already found in range (R294). -/
def Stream.windowMsb (st : Stream) (o w : Nat) : Byte := BitVec.ofNat 8 (bitsMsbFirst (st.bits o w))

/-- How many whole windows of `w` bits lie in the stream from offset `p` on: the number of times a scan's
`while POS + W <= SBITS` runs its body from there (R41, 70_reset_and_hazards.md R340). -/
def Stream.windowsFrom (st : Stream) (p w : Nat) : Nat := (st.bitCount - p) / w

/-- `DELIM`, a character other than `0` (0x30) and `1` (0x31) (R7, U6; log 11). -/
def delim : Byte :=
  if Config.delimIndex.val < 0x30 then BitVec.ofNat 8 Config.delimIndex.val
  else BitVec.ofNat 8 (Config.delimIndex.val + 2)

/-- The diagnostic rendering: bits in groups of 8 with `DELIM` between them (R132). Not reachable through a register. -/
def Stream.render (st : Stream) : List Byte :=
  (List.range st.bitCount).flatMap fun i =>
    (if i > 0 ∧ i % 8 = 0 then [delim] else []) ++ [if st.bit i then 0x31#8 else 0x30#8]

end Sys2Proof.Machine
end

