-- ==== Sys2Proof/Machine/Primitives.lean ====
section
/-! DEFINITION. The primitives as host commands (41_primitives.md R151, R153, R156, R158, R162 to R165). -/

namespace Sys2Proof.Machine

/-- End a command with the value an extraction returned: RES, or the error OutOfRange (R151). -/
def endExtract (s : State) : Option Byte → State
  | none => s.endError .outOfRange
  | some v => s.endOk (v.setWidth Config.xlen)

/-- EXTRACT_LSB (R151). -/
def execExtractLsb (s : State) : Host.Outcome State Fault Refusal :=
  match extractOperands s with
  | none => .next (s.endRefused rejOperand)
  | some (offset, width) => .next (endExtract s (exLsb s.stream offset width))

/-- EXTRACT_MSB (R153). -/
def execExtractMsb (s : State) : Host.Outcome State Fault Refusal :=
  match extractOperands s with
  | none => .next (s.endRefused rejOperand)
  | some (offset, width) => .next (endExtract s (exMsb s.stream offset width))

/-- INVERT (R156). -/
def execInvert (s : State) : Host.Outcome State Fault Refusal :=
  match byteOperand s with
  | none => .next (s.endRefused rejOperand)
  | some b => .next (s.endOk ((invertByte b).setWidth Config.xlen))

/-- CHECK_PARITY (R158): "a failed parity is a result, not an error". -/
def execCheckParity (s : State) : Host.Outcome State Fault Refusal :=
  match checkParityOperands s with
  | none => .next (s.endRefused rejOperand)
  | some (value, width, mode) => .next (s.endOk (if parityOk value width mode then 1 else 0))

/-- LRC_CLR (R162). -/
def execLrcClr (s : State) : Host.Outcome State Fault Refusal :=
  .next ((s.setLrcAcc 0).endOk 0)

/-- LRC_PUSH (R163). -/
def execLrcPush (s : State) : Host.Outcome State Fault Refusal :=
  match byteOperand s with
  | none => .next (s.endRefused rejOperand)
  | some c => .next ((s.setLrcAcc (s.lrcAcc ^^^ c)).endOk 0)

/-- LRC_FIN_T2 (R164); LRCACC unchanged. -/
def execLrcFinT2 (s : State) : Host.Outcome State Fault Refusal :=
  .next (s.endOk ((lrcFixT2 s.lrcAcc).setWidth Config.xlen))

/-- LRC_FIN_T1 (R165); LRCACC unchanged. -/
def execLrcFinT1 (s : State) : Host.Outcome State Fault Refusal :=
  .next (s.endOk ((lrcFixT1 s.lrcAcc).setWidth Config.xlen))

end Sys2Proof.Machine
end

