-- ==== Sys2Proof/Machine/Attempt.lean ====
section
/-! DEFINITION. One attempt of the sequencer: what the command that runs a descriptor does with its decoder's result
(45_orchestrator.md R262, R263). Every descriptor's meaning is one line over it. -/

namespace Sys2Proof.Machine

/-- What a decoder answers: `Ok(string)` or `Err(kind, info0, info1)` (R12, R261). -/
abbrev DecodeResult := Except Err (List Byte)

/-- An empty result is the failure NoValidFormat, with the open count (60_exceptions.md R283(b), U5; log 10). -/
def nonEmpty (str : List Byte) : DecodeResult :=
  if str = [] then .error (.noValidFormat Config.emptyAttempted) else .ok str

/-- The index of FL whose descriptor is being attempted: FPC in DECODE_LIST (R40), ARG0 in DECODE_ONE (R262). -/
def State.attemptIndex (s : State) : Word :=
  match s.phase with
  | .list fpc => BitVec.ofNat Config.xlen fpc
  | .one => s.arg0
  | .idle => s.arg0
  | .command _ => s.arg0

/-- A failed attempt: DECODE_LIST discards the error and moves FPC on (R263 line 12); DECODE_ONE ends with the
decoder's own error (R262). Outside both, which no run reaches, as DECODE_ONE (log 15). -/
def State.attemptFailed (s : State) (e : Err) : State :=
  match s.phase with
  | .list fpc => s.setPhase (.list (fpc + 1))
  | .one => s.recordNoMatch.endError e
  | .idle => s.recordNoMatch.endError e
  | .command _ => s.recordNoMatch.endError e

/-- An attempt of the descriptor `d` with the decoder's result `r`: a success ends the command (R262; R263 lines 8 to
11). -/
def attempt (d : Word) (r : DecodeResult) (s : State) : Host.Outcome State Fault Refusal :=
  match r with
  | .ok str => .next ((s.recordMatch s.attemptIndex d str).endOk 0)
  | .error e => .next (s.attemptFailed e)

end Sys2Proof.Machine
end

