-- ==== Sys2Proof/Machine/Custom.lean ====
section
/-! DEFINITION. The Custom decoder (44_custom.md R240 to R249) and its descriptor CUSTOM (R248). -/

namespace Sys2Proof.Machine

/-- A window, accumulated in the order LSBF names and complemented under INV (R242, R243; R246 lines 4, 5). -/
def customWindow (f : FormatSpec) (st : Stream) (p : Nat) : Byte :=
  let v := if f.lsbFirst then st.windowLsb p f.bitsPerChar else st.windowMsb p f.bitsPerChar
  if f.inverted then invertWidth f.bitsPerChar v else v

/-- Character decode by width (R247): `none` is an invalid character. -/
def customChar (w : Nat) (v : Byte) : Option Byte :=
  if w = 5 then some (0x30#8 + (v &&& 0x0F#8))
  else if w = 7 then some (0x20#8 + (v &&& 0x3F#8))
  else if w = 8 then some v
  else if v ≤ 9#8 then some (0x30#8 + v)
  else none

/-- The end-of-scan tests, in their order (R245; R246 lines 18 to 21). -/
def customEnd (f : FormatSpec) (started ended : Bool) (str : List Byte) : DecodeResult :=
  if f.startValid && !started then .error .invalidStartSentinel
  else if f.endValid && !ended then .error .invalidEndSentinel
  else nonEmpty str

/-- The scan over the `n` whole windows left from `p` (R246 lines 3 to 17). -/
def customScan (f : FormatSpec) (st : Stream) :
    (n p idx : Nat) → (started : Bool) → (str : List Byte) → DecodeResult
  | 0, _, _, started, str => customEnd f started false str
  | n + 1, p, idx, started, str =>
    let v := customWindow f st p
    if f.parity ≠ .none ∧ !parityOk v f.bitsPerChar f.parity then .error (.parityError idx)
    else if !started then
      customScan f st n (p + f.bitsPerChar) (idx + 1) (v == f.startSentinel) str
    else if f.endValid ∧ v = f.endSentinel then customEnd f started true str
    else
      match customChar f.bitsPerChar v with
      | none => .error (.invalidCharacter idx v.toNat)
      | some ch => customScan f st n (p + f.bitsPerChar) (idx + 1) true (str ++ [ch])

/-- `decode_custom(d)` (R246): the width check comes "before any bit is read" (R240). -/
def decodeCustom (f : FormatSpec) (st : Stream) : DecodeResult :=
  if f.bitsPerChar < 1 ∨ f.bitsPerChar > 8 then .error (.invalidCustomFormat 1)
  else customScan f st (st.windowsFrom 0 f.bitsPerChar) 0 0 (!f.startValid) []

/-- CUSTOM (R248). -/
def execCustom (f : FormatSpec) (s : State) : Host.Outcome State Fault Refusal :=
  attempt (encode (.custom f)) (decodeCustom f s.stream) s

end Sys2Proof.Machine
end

