-- ==== Sys2Proof/Machine/Track1.lean ====
section
/-! DEFINITION. The Track1 decoder (42_track1.md R180, R181) and its descriptors TRACK1 and TRACK1_INV (R182, R183). -/

namespace Sys2Proof.Machine

/-- A window of the Track1 decoder: 7 bits, LSB-first, complemented under inversion (R181 lines 4, 5 and 15, 16). -/
def t1Window (inv : Bool) (st : Stream) (p : Nat) : Byte :=
  if inv then invertWidth 7 (st.windowLsb p 7) else st.windowLsb p 7

/-- The six data bits of a Track1 character (R180). -/
def t1Data (c : Byte) : Byte := c &&& 0x3F#8

/-- After the end sentinel, with CHARS through it and `p` the offset just after it (R181 lines 14 to 19). -/
def t1Checksum (inv : Bool) (st : Stream) (p : Nat) (chars str : List Byte) : DecodeResult :=
  if p + 7 > st.bitCount then .error (.bitstreamTooShort st.bitCount (p + 7))
  else if t1Window inv st p ≠ lrcT1 chars then .error .checksumFailed
  else nonEmpty str

/-- The scan of R181 lines 3 to 25 over the `n` whole windows left from `p`: `idx` is IDX, `found` FOUND, `chars`
CHARS, `str` STR. -/
def t1Scan (inv : Bool) (st : Stream) :
    (n p idx : Nat) → (found : Bool) → (chars str : List Byte) → DecodeResult
  | 0, _, _, found, _, _ => .error (if found then .invalidEndSentinel else .invalidStartSentinel)
  | n + 1, p, idx, found, chars, str =>
    let c := t1Window inv st p
    if !parityOk c 7 .odd then .error (.parityError idx)
    else if !found then
      if t1Data c = 0x05#8 then t1Scan inv st n (p + 7) (idx + 1) true [c] str
      else t1Scan inv st n (p + 7) (idx + 1) false chars str
    else if t1Data c = 0x1F#8 then t1Checksum inv st (p + 7) (chars ++ [c]) str
    else
      let ch := 0x20#8 + t1Data c
      if ch < 0x20#8 ∨ ch > 0x5F#8 then .error (.invalidCharacter idx c.toNat)
      else t1Scan inv st n (p + 7) (idx + 1) true (chars ++ [c]) (str ++ [ch])

/-- `decode_t1(inv)` (R181). -/
def decodeT1 (inv : Bool) (st : Stream) : DecodeResult :=
  if st.bitCount < 21 then .error (.bitstreamTooShort st.bitCount 21)
  else t1Scan inv st (st.windowsFrom 0 7) 0 0 false [] []

/-- TRACK1's decoder (R182). -/
def decodeTrack1 (st : Stream) : DecodeResult := decodeT1 false st

/-- TRACK1_INV's decoder (R183). -/
def decodeTrack1Inv (st : Stream) : DecodeResult := decodeT1 true st

/-- TRACK1 (R182). -/
def execTrack1 (s : State) : Host.Outcome State Fault Refusal :=
  attempt (encode .track1) (decodeTrack1 s.stream) s

/-- TRACK1_INV (R183). -/
def execTrack1Inv (s : State) : Host.Outcome State Fault Refusal :=
  attempt (encode .track1Inv) (decodeTrack1Inv s.stream) s

end Sys2Proof.Machine
end

