-- ==== Sys2Proof/Machine/Track2.lean ====
section
/-! DEFINITION. The Track2 decoder family and Track3 (43_track2.md R200 to R210) and their descriptors (R211 to R218). -/

namespace Sys2Proof.Machine

/-- The five Boolean parameters of the family, all false in the default profile (R200). -/
structure T2Params where
  /-- Polarity inversion. -/
  inv : Bool := false
  /-- MSB-first wire order. -/
  msb : Bool := false
  /-- Raw mode. -/
  raw : Bool := false
  /-- Swapped parity, "recognized-but-inert" (R202): no function below reads it. -/
  swp : Bool := false
  /-- Even parity. -/
  even : Bool := false
deriving DecidableEq, Repr

/-- `canon(p)` (R201): extract LSB-first, reverse the bits under `msb`, complement under `inv`. -/
def canon (par : T2Params) (st : Stream) (p : Nat) : Byte :=
  let v := st.windowLsb p 5
  let v := if par.msb then rev5 v else v
  if par.inv then invertWidth 5 v else v

/-- The parity mode (R202). -/
def T2Params.mode (par : T2Params) : ParityMode := if par.even then .even else .odd

/-- The character map (R209). -/
def t2Char (c : Byte) : Byte := 0x30#8 + (c &&& 0x0F#8)

/-- Raw mode's scan over the `n` whole windows left from `p` (R203 lines 3 to 9). -/
def t2Raw (par : T2Params) (st : Stream) : (n p idx : Nat) → (str : List Byte) → DecodeResult
  | 0, _, _, str => nonEmpty str
  | n + 1, p, idx, str =>
    let c := canon par st p
    if !parityOk c 5 par.mode then .error (.parityError idx)
    else t2Raw par st n (p + 5) (idx + 1) (str ++ [t2Char c])

/-- The bit-slip search (R206): the first offset from 0 to `SBITS - 5` whose canonical value is the start sentinel. -/
def t2Search (par : T2Params) (st : Stream) : Option Nat :=
  (List.range (st.bitCount - 4)).find? fun o => canon par st o == 0x0B#8

/-- The checksum (R208), at the end sentinel `c` read at `p`, with CHARS not yet holding it. -/
def t2Checksum (span : LrcSpan) (par : T2Params) (st : Stream) (p : Nat) (c : Byte) (chars str : List Byte) :
    DecodeResult :=
  let chars := match span with
    | .inclEs => chars ++ [c]
    | .exclEs => chars
  if p + 5 + 5 > st.bitCount then .error (.bitstreamTooShort st.bitCount (p + 5 + 5))
  else
    let e := if par.inv then invertWidth 5 (lrcT2 chars) else lrcT2 chars
    if canon par st (p + 5) ≠ e then .error .checksumFailed else nonEmpty str

/-- The locked scan over the `n` whole windows left from `p` (R207 lines 3 to 10). -/
def t2Scan (span : LrcSpan) (par : T2Params) (st : Stream) :
    (n p idx : Nat) → (chars str : List Byte) → DecodeResult
  | 0, _, _, _, _ => .error .invalidEndSentinel
  | n + 1, p, idx, chars, str =>
    let c := canon par st p
    if !parityOk c 5 par.mode then .error (.parityError idx)
    else if c = 0x1F#8 then t2Checksum span par st p c chars str
    else t2Scan span par st n (p + 5) (idx + 1) (chars ++ [c]) (if idx > 0 then str ++ [t2Char c] else str)

/-- `decode_t2` with the checksum span as an argument (R210, R203, R204, R206, R207). -/
def decodeT2Span (span : LrcSpan) (par : T2Params) (st : Stream) : DecodeResult :=
  if par.raw then t2Raw par st (st.windowsFrom 0 5) 0 0 []
  else if st.bitCount < 15 then .error (.bitstreamTooShort st.bitCount 15)
  else
    match t2Search par st with
    | none => .error .invalidStartSentinel
    | some lock => t2Scan span par st (st.windowsFrom lock 5) lock 0 [] []

/-- `decode_t2(inv, msb, raw, swp, even)` (R210) at the configured span (R7, log 12). -/
def decodeT2 (par : T2Params) (st : Stream) : DecodeResult := decodeT2Span Config.t2LrcSpan par st

/-- TRACK2's decoder: every default (R211). -/
def decodeTrack2 (st : Stream) : DecodeResult := decodeT2 {} st

/-- TRACK2_INV's decoder (R212). -/
def decodeTrack2Inv (st : Stream) : DecodeResult := decodeT2 { inv := true } st

/-- TRACK2_MSB's decoder (R213). -/
def decodeTrack2Msb (st : Stream) : DecodeResult := decodeT2 { msb := true } st

/-- TRACK2_LSB's decoder: "LSB-first is already the default wire order" (R214). -/
def decodeTrack2Lsb (st : Stream) : DecodeResult := decodeT2 {} st

/-- TRACK2_RAW's decoder (R215). -/
def decodeTrack2Raw (st : Stream) : DecodeResult := decodeT2 { raw := true } st

/-- TRACK2_SWP's decoder (R216). -/
def decodeTrack2Swp (st : Stream) : DecodeResult := decodeT2 { swp := true } st

/-- TRACK2_EVEN's decoder (R217). -/
def decodeTrack2Even (st : Stream) : DecodeResult := decodeT2 { even := true } st

/-- TRACK3's decoder (R218). -/
def decodeTrack3 (st : Stream) : DecodeResult := decodeT2 {} st

/-- TRACK2 (R211). -/
def execTrack2 (s : State) : Host.Outcome State Fault Refusal :=
  attempt (encode .track2) (decodeTrack2 s.stream) s

/-- TRACK2_INV (R212). -/
def execTrack2Inv (s : State) : Host.Outcome State Fault Refusal :=
  attempt (encode .track2Inv) (decodeTrack2Inv s.stream) s

/-- TRACK2_MSB (R213). -/
def execTrack2Msb (s : State) : Host.Outcome State Fault Refusal :=
  attempt (encode .track2Msb) (decodeTrack2Msb s.stream) s

/-- TRACK2_LSB (R214). -/
def execTrack2Lsb (s : State) : Host.Outcome State Fault Refusal :=
  attempt (encode .track2Lsb) (decodeTrack2Lsb s.stream) s

/-- TRACK2_RAW (R215). -/
def execTrack2Raw (s : State) : Host.Outcome State Fault Refusal :=
  attempt (encode .track2Raw) (decodeTrack2Raw s.stream) s

/-- TRACK2_SWP (R216). -/
def execTrack2Swp (s : State) : Host.Outcome State Fault Refusal :=
  attempt (encode .track2Swp) (decodeTrack2Swp s.stream) s

/-- TRACK2_EVEN (R217). -/
def execTrack2Even (s : State) : Host.Outcome State Fault Refusal :=
  attempt (encode .track2Even) (decodeTrack2Even s.stream) s

/-- TRACK3 (R218). -/
def execTrack3 (s : State) : Host.Outcome State Fault Refusal :=
  attempt (encode .track3) (decodeTrack3 s.stream) s

end Sys2Proof.Machine
end

