-- ==== Sys2Proof/Machine/Sequencer.lean ====
section
/-! DEFINITION. The format sequencer: NOP, DECODE_ONE, DECODE_LIST (45_orchestrator.md R260 to R263). DECODE_ONE and
DECODE_LIST make the interface checks and start the attempts; each attempt is a step of the engine that runs the
descriptor fetched from FL (log 2). -/

namespace Sys2Proof.Machine

/-- NOP: the success epilogue and nothing else (R260). -/
def execNop (s : State) : Host.Outcome State Fault Refusal :=
  .next (s.endOk 0)

/-- DECODE_ONE (R262): refused on a bad index or FLEN, then on an illegal descriptor; else its attempt comes next. -/
def execDecodeOne (s : State) : Host.Outcome State Fault Refusal :=
  match decodeOneOperand s with
  | none => .next (s.endRefused rejOperand)
  | some index =>
    if !legalDescriptor (s.flWord index) then .next (s.endRefused rejDescriptor)
    else .next (s.setPhase .one)

/-- Every descriptor of the list is legal (R263: "all checked before the first attempt"). -/
def listLegal (s : State) (n : Nat) : Bool := (List.range n).all fun i => legalDescriptor (s.flWord i)

/-- DECODE_LIST (R263): refused on a bad FLEN, then on an illegal descriptor; NoFormatsProvided on an empty list
(lines 1 to 3); else `FPC <- 0` (line 4). -/
def execDecodeList (s : State) : Host.Outcome State Fault Refusal :=
  match decodeListLength s with
  | none => .next (s.endRefused rejOperand)
  | some n =>
    if !listLegal s n then .next (s.endRefused rejDescriptor)
    else if n = 0 then .next (s.recordNoMatch.endError .noFormatsProvided)
    else .next (s.setPhase (.list 0))

/-- Every format of the list failed (R263 lines 13, 14). -/
def State.listExhausted (s : State) : State := s.recordNoMatch.endError (.noValidFormat s.flen)

/-- `decode_format(d)` (R261): the decoder a descriptor names; none for a command. -/
def decodeFormat (i : Instr) (st : Stream) : Option DecodeResult :=
  match i with
  | .nop => none
  | .bsNew => none
  | .extractLsb => none
  | .extractMsb => none
  | .invert => none
  | .checkParity => none
  | .lrcClr => none
  | .lrcPush => none
  | .lrcFinT2 => none
  | .lrcFinT1 => none
  | .decodeOne => none
  | .decodeList => none
  | .track1 => some (decodeTrack1 st)
  | .track1Inv => some (decodeTrack1Inv st)
  | .track2 => some (decodeTrack2 st)
  | .track2Inv => some (decodeTrack2Inv st)
  | .track2Msb => some (decodeTrack2Msb st)
  | .track2Lsb => some (decodeTrack2Lsb st)
  | .track2Raw => some (decodeTrack2Raw st)
  | .track2Swp => some (decodeTrack2Swp st)
  | .track2Even => some (decodeTrack2Even st)
  | .track3 => some (decodeTrack3 st)
  | .custom f => some (decodeCustom f st)

end Sys2Proof.Machine
end

