-- ==== Sys2Proof/Machine/Dispatch.lean ====
section
/-! DEFINITION. The meaning of every instruction, one arm per constructor. -/

namespace Sys2Proof.Machine

def exec (i : Instr) (s : State) : Host.Outcome State Fault Refusal :=
  match i with
  | .nop => Sys2Proof.Machine.execNop s
  | .bsNew => Sys2Proof.Machine.execBsNew s
  | .extractLsb => Sys2Proof.Machine.execExtractLsb s
  | .extractMsb => Sys2Proof.Machine.execExtractMsb s
  | .invert => Sys2Proof.Machine.execInvert s
  | .checkParity => Sys2Proof.Machine.execCheckParity s
  | .lrcClr => Sys2Proof.Machine.execLrcClr s
  | .lrcPush => Sys2Proof.Machine.execLrcPush s
  | .lrcFinT2 => Sys2Proof.Machine.execLrcFinT2 s
  | .lrcFinT1 => Sys2Proof.Machine.execLrcFinT1 s
  | .decodeOne => Sys2Proof.Machine.execDecodeOne s
  | .decodeList => Sys2Proof.Machine.execDecodeList s
  | .track1 => Sys2Proof.Machine.execTrack1 s
  | .track1Inv => Sys2Proof.Machine.execTrack1Inv s
  | .track2 => Sys2Proof.Machine.execTrack2 s
  | .track2Inv => Sys2Proof.Machine.execTrack2Inv s
  | .track2Msb => Sys2Proof.Machine.execTrack2Msb s
  | .track2Lsb => Sys2Proof.Machine.execTrack2Lsb s
  | .track2Raw => Sys2Proof.Machine.execTrack2Raw s
  | .track2Swp => Sys2Proof.Machine.execTrack2Swp s
  | .track2Even => Sys2Proof.Machine.execTrack2Even s
  | .track3 => Sys2Proof.Machine.execTrack3 s
  | .custom f => Sys2Proof.Machine.execCustom f s

end Sys2Proof.Machine
end

