-- ==== Sys2Proof/Machine/Fetch.lean ====
section
/-! DEFINITION. What the engine's next move is (45_orchestrator.md R265, 20_memory.md R78), and where a bare word is put
so that the next move fetches it. -/

namespace Sys2Proof.Machine

/-- The engine's next move. -/
inductive Fetched where
  /-- It runs this instruction. -/
  | instr (i : Instr)
  /-- There is no instruction to run: the move has this outcome. -/
  | settled (o : Host.Outcome State Fault Refusal)

/-- The descriptor at an index of FL, read afresh (R78). An illegal one is refused (R104), and an index at or above N_FL
has no word: both are kept from reaching this point by the checks of DECODE_ONE and DECODE_LIST (log 15). -/
def fetchDescriptor (s : State) (index : Nat) : Fetched :=
  if index ≥ Config.nFL then .settled (.fault (.noSuchDescriptor index))
  else
    match decodeDescriptor (s.flWord index) with
    | .ok i => .instr i
    | .error _ => .settled (.next (s.endRefused rejDescriptor))

/-- The next move: idle, "it does nothing until the host writes CMD" (R320); a word that is no command is refused with
REJ_CODE 1 (R91); DECODE_ONE's attempt (R262); DECODE_LIST's attempt or its exit, by R263 line 5. -/
def fetch (s : State) : Fetched :=
  match s.phase with
  | .idle => .settled (.next s)
  | .command c =>
    match decodeCommand c with
    | .ok i => .instr i
    | .error _ => .settled (.next (s.endRefused rejOpcode))
  | .one => fetchDescriptor s s.arg0.toNat
  | .list fpc =>
    if fpc < s.flen.toNat then fetchDescriptor s fpc else .settled (.next s.listExhausted)

/-- Put a word where the next engine move fetches it: a word that `decodeTableWord` reads as a descriptor goes to
FL[0] with ARG0 = 0 and DECODE_ONE's attempt next; any other word is the command CMD holds (log 1, log 4). -/
def placeWord (s : State) (nbits w : Nat) : State :=
  match decodeTableWord nbits w with
  | none => { s with inputs := [], phase := .command (tableWord nbits w) }
  | some i =>
    if i.isCommand then { s with inputs := [], phase := .command (tableWord nbits w) }
    else { s.writeFL 0 (tableWord nbits w) with inputs := [], arg0 := 0, phase := .one }

end Sys2Proof.Machine
end

