-- ==== Sys2Proof/Machine/Flags.lean ====
section
/-! DEFINITION. STATUS (10_state.md R24): the flags that are views, and the word the host reads. -/

namespace Sys2Proof.Machine

/-- STATUS.BUSY: 1 from an accepted CMD write until the command ends (R24). -/
def State.busy (s : State) : Bool :=
  match s.phase with
  | .idle => false
  | .command _ => true
  | .one => true
  | .list _ => true

/-- STATUS.SEMPTY: "1 exactly when SBITS = 0" (R24). -/
def State.sempty (s : State) : Bool := s.sbits == 0

/-- The STATUS word (R24): REJ_CODE in bits 15:8, then SEMPTY, REJ, OK, DONE, BUSY in bits 4 to 0; "all other bits
read 0". -/
def State.status (s : State) : Word :=
  fieldAt 8 s.rejCode ||| fieldAt 4 (BitVec.ofBool s.sempty) ||| fieldAt 3 (BitVec.ofBool s.rej) |||
    fieldAt 2 (BitVec.ofBool s.ok) ||| fieldAt 1 (BitVec.ofBool s.done) ||| fieldAt 0 (BitVec.ofBool s.busy)

end Sys2Proof.Machine
end

