-- ==== Sys2Proof/Machine/HostBus.lean ====
section
/-! DEFINITION. The host's accesses to the register space (10_state.md R34, 20_memory.md R68 to R70,
70_reset_and_hazards.md R330). -/

namespace Sys2Proof.Machine

/-- What a word address names (R34). -/
inductive HostReg where
  | cmd
  | status
  | arg0
  | arg1
  | res
  | errKind
  | errInfo0
  | errInfo1
  | sbits
  | slen
  | flen
  | matchIdx
  | matchFmt
  | outLen
  | lrcAcc
  | fl (i : Nat)
  | fb (i : Nat)
  | out (i : Nat)
  /-- The reserved word 0x00F and every address not in the table: "reads 0 and ignores writes". -/
  | unmapped
deriving DecidableEq, Repr

/-- The register map (R34). -/
def hostReg (addr : Nat) : HostReg :=
  match addr with
  | 0x000 => .cmd
  | 0x001 => .status
  | 0x002 => .arg0
  | 0x003 => .arg1
  | 0x004 => .res
  | 0x005 => .errKind
  | 0x006 => .errInfo0
  | 0x007 => .errInfo1
  | 0x008 => .sbits
  | 0x009 => .slen
  | 0x00A => .flen
  | 0x00B => .matchIdx
  | 0x00C => .matchFmt
  | 0x00D => .outLen
  | 0x00E => .lrcAcc
  | a =>
    if 0x010 ≤ a ∧ a < 0x010 + Config.nFL then .fl (a - 0x010)
    else if 0x100 ≤ a ∧ a < 0x100 + Config.nFB then .fb (a - 0x100)
    else if 0x800 ≤ a ∧ a < 0x800 + Config.nOUT then .out (a - 0x800)
    else .unmapped

/-- The word a register or array element reads as while BUSY = 0 (R34). -/
def State.hostView (s : State) : HostReg → Word
  | .cmd => 0
  | .status => s.status
  | .arg0 => s.arg0
  | .arg1 => s.arg1
  | .res => s.res
  | .errKind => s.errKind
  | .errInfo0 => s.errInfo0
  | .errInfo1 => s.errInfo1
  | .sbits => s.sbits
  | .slen => s.slen
  | .flen => s.flen
  | .matchIdx => s.matchIdx
  | .matchFmt => s.matchFmt
  | .outLen => s.outLen
  | .lrcAcc => s.lrcAcc.setWidth Config.xlen
  | .fl i => s.flWord i
  | .fb i => (s.fbByte i).setWidth Config.xlen
  | .out i => (s.outByte i).setWidth Config.xlen
  | .unmapped => 0

/-- Whether a read while BUSY = 1 may return any value: every register and array but STATUS (R330, U3; log 9). -/
def HostReg.openWhileBusy : HostReg → Bool
  | .status => false
  | .unmapped => false
  | .cmd => true
  | .arg0 => true
  | .arg1 => true
  | .res => true
  | .errKind => true
  | .errInfo0 => true
  | .errInfo1 => true
  | .sbits => true
  | .slen => true
  | .flen => true
  | .matchIdx => true
  | .matchFmt => true
  | .outLen => true
  | .lrcAcc => true
  | .fl _ => true
  | .fb _ => true
  | .out _ => true

/-- A host read: it changes nothing of the block (R68); the model's read data takes the word. -/
def State.hostRead (s : State) (addr : Nat) : State :=
  if s.busy && (hostReg addr).openWhileBusy then
    { s with readData := Config.busyRead s.draws addr, draws := s.draws + 1 }
  else { s with readData := s.hostView (hostReg addr) }

/-- A host write accepted while BUSY = 0 (R34): CMD starts a command (R265), an FB write empties the stream (R70), a
write to a read-only register or an unmapped address is ignored. -/
def State.hostStore (s : State) (r : HostReg) (data : Word) : State :=
  match r with
  | .cmd => s.acceptCommand data
  | .status => s
  | .arg0 => { s with arg0 := data }
  | .arg1 => { s with arg1 := data }
  | .res => s
  | .errKind => s
  | .errInfo0 => s
  | .errInfo1 => s
  | .sbits => s
  | .slen => s
  | .flen => { s with flen := data }
  | .matchIdx => s
  | .matchFmt => s
  | .outLen => s
  | .lrcAcc => s
  | .fl i => s.writeFL i data
  | .fb i => s.writeFB i (data.extractLsb' 0 8)
  | .out _ => s
  | .unmapped => s

/-- A host write: dropped while BUSY = 1 (R330). -/
def State.hostWrite (s : State) (addr : Nat) (data : Word) : State :=
  if s.busy then s else s.hostStore (hostReg addr) data

/-- One host access. -/
def State.hostAccess (s : State) : HostAccess → State
  | .read addr => s.hostRead addr
  | .write addr data => s.hostWrite addr data

end Sys2Proof.Machine
end

