-- ==== Sys2Proof/Machine/Step.lean ====
section
/-! DEFINITION. One step of the machine: the next turn of the environment's schedule (log 2, log 3), which is a host
access, a reset, or a move of the engine; when the schedule is empty the engine moves. -/

namespace Sys2Proof.Machine

/-- One move of the engine. -/
def engineStep (s : State) : Host.Outcome State Fault Refusal :=
  match fetch s with
  | .instr i => exec i s
  | .settled o => o

/-- One step. -/
def step (s : State) : Host.Outcome State Fault Refusal :=
  match s.inputs with
  | [] => engineStep s
  | .engine :: rest => engineStep { s with inputs := rest }
  | .host a :: rest => .next (({ s with inputs := rest } : State).hostAccess a)
  | .reset :: rest => .next ({ s with inputs := rest } : State).hostReset

/-- The state whose next step fetches and runs the instruction of a table row's word (log 4). -/
def State.withFetchWord (s : State) (nbits w : Nat) : State := placeWord s nbits w

end Sys2Proof.Machine
end

