-- ==== Sys2Proof/Machine/Atomic.lean ====
section
/-! DEFINITION. DECODE_ONE and DECODE_LIST as the one state transition that 20_memory.md R75 and 45_orchestrator.md R265 allow
a model to collapse a command into: the pseudocode of R262 and R263 read as a function. The machine runs them attempt
by attempt (log 2); claims say that its run ends in the state these functions give. -/

namespace Sys2Proof.Machine

/-- `decode_format(FL[k])` on the current stream, when `FL[k]` is legal (R261). -/
def decodeEntry (s : State) (k : Nat) : Option DecodeResult :=
  match decodeDescriptor (s.flWord k) with
  | .ok i => decodeFormat i s.stream
  | .error _ => none

/-- The string of attempt `k`, if it succeeds. -/
def entryString (s : State) (k : Nat) : Option (List Byte) :=
  match decodeEntry s k with
  | some (.ok str) => some str
  | some (.error _) => none
  | none => none

/-- The first index below FLEN whose attempt succeeds, with its string (R263 lines 4 to 12). -/
def firstMatch (s : State) : Option (Nat × List Byte) :=
  (List.range s.flen.toNat).findSome? fun k => (entryString s k).map fun str => (k, str)

/-- The end state of DECODE_ONE after its checks (R262): the decoder's own result. -/
def atomicDecodeOne (s : State) : State :=
  match decodeEntry s s.arg0.toNat with
  | some (.ok str) => (s.recordMatch s.arg0 (s.flWord s.arg0.toNat) str).endOk 0
  | some (.error e) => s.recordNoMatch.endError e
  | none => s.endRefused rejDescriptor

/-- The end state of DECODE_LIST after its checks (R263). -/
def atomicDecodeList (s : State) : State :=
  if s.flen = 0 then s.recordNoMatch.endError .noFormatsProvided
  else
    match firstMatch s with
    | some (k, str) => (s.recordMatch (BitVec.ofNat Config.xlen k) (s.flWord k) str).endOk 0
    | none => s.recordNoMatch.endError (.noValidFormat s.flen)

end Sys2Proof.Machine
end

