-- ==== Sys2Proof/Safety.lean ====
section
/-! DEFINITION. What claims about the machine are stated in: its invariant, and runs of the engine. -/

namespace Sys2Proof.Machine

/-- FB and FL are in canonical form within their sizes (20_memory.md R60; 10_state.md R31, R32). -/
def State.arraysWf (s : State) : Prop :=
  Memory.wf Config.nFB s.fb = true ∧ Memory.wf Config.nFL s.fl = true

/-- The BitStream invariant (40_bitstream.md R133): `SLEN = ceil(SBITS / 8)` and `SLEN <= N_FB`. -/
def State.streamWf (s : State) : Prop :=
  s.slen.toNat = requiredBytes s.sbits.toNat ∧ s.slen.toNat ≤ Config.nFB

/-- OUT holds exactly OUT_LEN characters, within its size (R29, R33). -/
def State.outWf (s : State) : Prop :=
  s.outLen.toNat = s.out.length ∧ s.out.length ≤ Config.nOUT

/-- The match registers describe OUT: no string, or a string of a legal descriptor of FL's index range (R28, R29, R270). -/
def State.matchWf (s : State) : Prop :=
  (s.outLen = 0 ∧ s.matchIdx = 0xFFFFFFFF ∧ s.matchFmt = 0) ∨
    (s.outLen ≠ 0 ∧ s.matchIdx.toNat < Config.nFL ∧ legalDescriptor s.matchFmt = true)

/-- The record of the last command (R24, R266, R267): cleared while BUSY; else nothing yet, success, error or refusal. -/
def State.recordWf (s : State) : Prop :=
  if s.busy then
    s.done = false ∧ s.ok = false ∧ s.rej = false ∧ s.rejCode = 0 ∧ s.res = 0 ∧
      s.errKind = 0 ∧ s.errInfo0 = 0 ∧ s.errInfo1 = 0
  else
    (s.done = false ∧ s.ok = false ∧ s.rej = false ∧ s.rejCode = 0 ∧ s.res = 0 ∧
      s.errKind = 0 ∧ s.errInfo0 = 0 ∧ s.errInfo1 = 0) ∨
    (s.done = true ∧ s.ok = true ∧ s.rej = false ∧ s.rejCode = 0 ∧
      s.errKind = 0 ∧ s.errInfo0 = 0 ∧ s.errInfo1 = 0) ∨
    (s.done = true ∧ s.ok = false ∧ s.rej = false ∧ s.rejCode = 0 ∧ s.res = 0 ∧
      s.errKind ∈ [1, 2, 3, 4, 5, 6, 7, 8, 9, 16, 17]) ∨
    (s.done = true ∧ s.ok = false ∧ s.rej = true ∧ s.rejCode ∈ [1, 2, 3] ∧ s.res = 0 ∧
      s.errKind = 0 ∧ s.errInfo0 = 0 ∧ s.errInfo1 = 0)

/-- What the checks of a decode command leave true while its attempts run (R262, R263; R40 for FPC's range). -/
def State.sequencerWf (s : State) : Prop :=
  match s.phase with
  | .idle => True
  | .command _ => True
  | .one => s.flen.toNat ≤ Config.nFL ∧ s.arg0.toNat < s.flen.toNat ∧
      legalDescriptor (s.flWord s.arg0.toNat) = true
  | .list fpc => s.flen.toNat ≤ Config.nFL ∧ fpc ≤ s.flen.toNat ∧ listLegal s s.flen.toNat = true

/-- Every free value in use was drawn before the next draw, so the next one is fresh (the model's own, log 6). -/
def State.drawsWf (s : State) : Prop := s.resetDraw < s.draws ∧ s.outDraw < s.draws

/-- The machine's invariant. -/
def State.Inv (s : State) : Prop :=
  s.arraysWf ∧ s.streamWf ∧ s.outWf ∧ s.matchWf ∧ s.recordWf ∧ s.sequencerWf ∧ s.drawsWf

/-- A run of `n` engine moves, with no host access and no reset between them. -/
def engineRun (n : Nat) (s : State) : Host.Outcome State Fault Refusal :=
  match n with
  | 0 => .next s
  | n + 1 =>
    match engineStep s with
    | .next t => engineRun n t
    | .fault r => .fault r
    | .refused r => .refused r

/-- The machine did not stop: the step answered a next state. -/
def Completes (o : Host.Outcome State Fault Refusal) : Prop := ∃ t, o = .next t

/-- Two states agree on what 10_state.md R43 says a command's results are a function of: the stream's bits, FL within
FLEN, the operands, LRCACC, and the stage of the command. FB beyond the stream's bits may differ (20_memory.md R63). -/
def SameInputs (s t : State) : Prop :=
  s.phase = t.phase ∧ s.arg0 = t.arg0 ∧ s.arg1 = t.arg1 ∧ s.sbits = t.sbits ∧ s.slen = t.slen ∧
    s.flen = t.flen ∧ s.lrcAcc = t.lrcAcc ∧
    (∀ i, i < s.sbits.toNat → s.stream.bit i = t.stream.bit i) ∧
    (∀ i, i < s.flen.toNat → s.flWord i = t.flWord i)

/-- Two states agree on the record of the last command: STATUS, RES and the error registers (R43). -/
def SameRecord (s t : State) : Prop :=
  s.status = t.status ∧ s.res = t.res ∧ s.errKind = t.errKind ∧ s.errInfo0 = t.errInfo0 ∧
    s.errInfo1 = t.errInfo1

/-- Two states agree on what a decode command reports: MATCH_IDX, MATCH_FMT, OUT_LEN and the string (R43). -/
def SameMatch (s t : State) : Prop :=
  s.matchIdx = t.matchIdx ∧ s.matchFmt = t.matchFmt ∧ s.outLen = t.outLen ∧ s.out = t.out

/-- The host pushes the characters one by one: for each, ARG0 takes the character and LRC_PUSH runs (R163). -/
def pushChars : List Byte → State → Host.Outcome State Fault Refusal
  | [], s => .next s
  | c :: cs, s =>
    match exec .lrcPush { s with arg0 := c.setWidth Config.xlen } with
    | .next t => pushChars cs t
    | .fault r => .fault r
    | .refused r => .refused r

end Sys2Proof.Machine
end

