-- ==== Sys2Proof/Certificates/Slice0/Obligations.lean ====
section
/-! DEFINITION. The statements for the provers. "The spec's decision D<n>" in a docstring names the row of
92_eei_decisions.md that the cited rule itself cites; "log <n>" names notes/assumptions/<n>.md. -/

open Sys2Proof Sys2Proof.Machine

/-! ## Encoding -/

/-- Decoding an encoded well-formed instruction gives it back, in its own instruction space (R90, R91, R98 to R100). -/
def Obligations.EncodeThenDecode : Prop :=
  ∀ i : Instr, i.wellFormed = true →
    (i.isCommand = true → decodeCommand (encode i) = .ok i) ∧
    (i.isCommand = false → decodeDescriptor (encode i) = .ok i)

/-- A word that decodes is the word of what it decodes to, and that is a well-formed instruction of the word's space: no
two words are one instruction, and MATCH_FMT, written as the instruction's word, is the word fetched from FL. -/
def Obligations.DecodeThenEncode : Prop :=
  ∀ (w : Word) (i : Instr),
    (decodeCommand w = .ok i → i.isCommand = true ∧ i.wellFormed = true ∧ encode i = w) ∧
    (decodeDescriptor w = .ok i → i.isCommand = false ∧ i.wellFormed = true ∧ encode i = w)

/-- Words written out in the spec decode to what the spec says they are (30_encoding.md R111, R91; vector O-11). -/
def Obligations.SpecWordsDecode : Prop :=
  decodeDescriptor 0x1F0B335A = .ok (.custom ⟨5, true, .odd, false, true, true, 0x0B, 0x1F⟩) ∧
  decodeDescriptor 0x1F453B7A = .ok (.custom ⟨7, true, .odd, true, true, true, 0x45, 0x1F⟩) ∧
  decodeDescriptor 0x0000000A = .ok (.custom ⟨0, false, .none, false, false, false, 0, 0⟩) ∧
  decodeDescriptor 0x00000009 = .ok .track3 ∧
  decodeDescriptor 0x0000065A = .error .illegalParity ∧
  decodeDescriptor 0x0000405A = .error .reservedDescriptorBits ∧
  decodeDescriptor 0x0000000B = .error .unknownTag ∧
  decodeCommand 0x0000001A = .ok .lrcFinT2 ∧
  decodeCommand 0x00000021 = .ok .decodeList ∧
  decodeCommand 0x00000022 = .error .unknownOpcode ∧
  decodeCommand 0x80000021 = .error .reservedCommandBits

/-- Which descriptors are legal, by the numbers of their fields (R104). -/
def Obligations.LegalDescriptorFields : Prop :=
  ∀ d : Word, legalDescriptor d = true ↔
    (d.toNat < 10) ∨
      (d.toNat % 16 = 10 ∧ d.toNat / 2 ^ 14 % 4 = 0 ∧ d.toNat / 2 ^ 9 % 4 ≠ 3)

/-- A word in CMD with a bit of 31:8 set, or whose OPC is none of the twelve, is refused with REJ_CODE 1, and "no other
state changes" (R90, R91, R290, R291). -/
def Obligations.IllegalCommandWordRefused : Prop :=
  ∀ (s : State) (c : Word), s.phase = .command c →
    c.toNat ∉ [0x00, 0x01, 0x10, 0x11, 0x12, 0x13, 0x18, 0x19, 0x1A, 0x1B, 0x20, 0x21] →
    engineStep s = .next (s.endRefused 1)

/-! ## Steps, the host, reset -/

/-- A step whose turn is the engine's runs the instruction it fetches: the command in CMD, `FL[ARG0]` under DECODE_ONE,
`FL[FPC]` under DECODE_LIST. Around `exec` the step only takes the turn off the schedule (log 2, log 3). -/
def Obligations.StepRunsFetchedInstruction : Prop :=
  ∀ (s u : State) (i : Instr),
    (s.inputs = [] ∧ u = s) ∨ (∃ rest, s.inputs = .engine :: rest ∧ u = { s with inputs := rest }) →
    (∀ c, s.phase = .command c → decodeCommand c = .ok i → step s = exec i u) ∧
    (s.phase = .one → s.arg0.toNat < Config.nFL → decodeDescriptor (s.flWord s.arg0.toNat) = .ok i →
      step s = exec i u) ∧
    (∀ fpc, s.phase = .list fpc → fpc < s.flen.toNat → fpc < Config.nFL →
      decodeDescriptor (s.flWord fpc) = .ok i → step s = exec i u)

/-- The other turns (log 2, log 3, the model's own convention): a host access and a reset take the first place of the
schedule and have their effect; the idle engine changes nothing (R320, "it does nothing until the host writes CMD"). -/
def Obligations.TurnsOfTheSchedule : Prop :=
  ∀ (s : State) (rest : List Input),
    (∀ a, s.inputs = .host a :: rest → step s = .next (({ s with inputs := rest } : State).hostAccess a)) ∧
    (s.inputs = .reset :: rest → step s = .next ({ s with inputs := rest } : State).hostReset) ∧
    (s.phase = .idle → engineStep s = .next s)

/-- The three epilogues (R267): what each writes, and the STATUS word that results; everything else is unchanged. -/
def Obligations.EpilogueTable : Prop :=
  ∀ (s : State) (r : Word) (e : Err) (c : BitVec 8),
    s.endOk r = { s with
      phase := .idle, done := true, ok := true, rej := false, rejCode := 0
      errKind := 0, errInfo0 := 0, errInfo1 := 0, res := r } ∧
    s.endError e = { s with
      phase := .idle, done := true, ok := false, rej := false, rejCode := 0
      errKind := e.code, errInfo0 := e.info0, errInfo1 := e.info1, res := 0 } ∧
    s.endRefused c = { s with
      phase := .idle, done := true, ok := false, rej := true, rejCode := c
      errKind := 0, errInfo0 := 0, errInfo1 := 0, res := 0 } ∧
    (s.endOk r).status.toNat = 0x06 + (if s.sbits = 0 then 0x10 else 0) ∧
    (s.endError e).status.toNat = 0x02 + (if s.sbits = 0 then 0x10 else 0) ∧
    (s.endRefused c).status.toNat = 0x0A + (if s.sbits = 0 then 0x10 else 0) + 256 * c.toNat

/-- The error kinds, their codes and payloads (R281): what ERR_KIND, ERR_INFO0 and ERR_INFO1 hold after a command ends with each. -/
def Obligations.ErrorCodesAndPayloads : Prop :=
  ∀ (s : State) (a b : Nat) (x : Word),
    let shown := fun e : Err => ((s.endError e).errKind, (s.endError e).errInfo0, (s.endError e).errInfo1)
    shown .noFormatsProvided = (1, 0, 0) ∧ shown (.noValidFormat x) = (2, x, 0) ∧
    shown (.bitstreamTooShort a b) = (3, BitVec.ofNat 32 a, BitVec.ofNat 32 b) ∧
    shown (.parityError a) = (4, BitVec.ofNat 32 a, 0) ∧ shown .invalidStartSentinel = (5, 0, 0) ∧
    shown .invalidEndSentinel = (6, 0, 0) ∧ shown .checksumFailed = (7, 0, 0) ∧
    shown (.invalidCharacter a b) = (8, BitVec.ofNat 32 a, BitVec.ofNat 32 b) ∧
    shown (.invalidCustomFormat a) = (9, BitVec.ofNat 32 a, 0) ∧
    shown (.lengthMismatch a b) = (16, BitVec.ofNat 32 a, BitVec.ofNat 32 b) ∧ shown .outOfRange = (17, 0, 0)

/-- The prologue (R266): a CMD write accepted while BUSY = 0 clears the record of the last command, sets BUSY and leaves the
word for the checks; nothing else changes. STATUS then reads 1, plus SEMPTY (R24). -/
def Obligations.CmdWriteRunsPrologue : Prop :=
  ∀ (s : State) (w : Word), s.busy = false →
    ∃ t, s.hostAccess (.write 0x000 w) = t ∧
      t = { s with
        phase := .command w, done := false, ok := false, rej := false, rejCode := 0
        res := 0, errKind := 0, errInfo0 := 0, errInfo1 := 0 } ∧
      t.status.toNat = 0x01 + (if s.sbits = 0 then 0x10 else 0)

/-- The STATUS word, bit by bit (R24). -/
def Obligations.StatusWordFields : Prop :=
  ∀ s : State,
    s.status.getLsbD 0 = s.busy ∧ s.status.getLsbD 1 = s.done ∧ s.status.getLsbD 2 = s.ok ∧
    s.status.getLsbD 3 = s.rej ∧ (s.status.getLsbD 4 = true ↔ s.sbits = 0) ∧
    s.status.extractLsb' 8 8 = s.rejCode ∧
    (∀ k, (5 ≤ k ∧ k < 8) ∨ 16 ≤ k → s.status.getLsbD k = false) ∧
    (s.busy = false ↔ s.phase = .idle)

/-- While BUSY = 1 a host write has no effect at all, a read of STATUS returns STATUS (with DONE = 0 in a state whose
record is cleared), a read of an unmapped word returns 0, and every other read returns the free value of its draw
(R330, U3; log 9). -/
def Obligations.HostAccessWhileBusy : Prop :=
  ∀ (s : State) (rest : List Input) (addr : Nat) (data : Word), s.busy = true →
    (s.inputs = .host (.write addr data) :: rest → step s = .next { s with inputs := rest }) ∧
    (s.inputs = .host (.read 1) :: rest →
      step s = .next { s with inputs := rest, readData := s.status } ∧
      s.status.getLsbD 0 = true ∧ (s.recordWf → s.status.getLsbD 1 = false)) ∧
    (s.inputs = .host (.read addr) :: rest → addr ≠ 1 → hostReg addr ≠ .unmapped →
      step s = .next { s with
        inputs := rest, readData := Config.busyRead s.draws addr, draws := s.draws + 1 }) ∧
    (s.inputs = .host (.read addr) :: rest → hostReg addr = .unmapped →
      step s = .next { s with inputs := rest, readData := 0 })

/-- A host write to `FB[i]` while BUSY = 0 stores the byte in data bits 7:0 and empties the stream (R70): every other byte
of FB, all of FL, and every other field are unchanged, so SEMPTY reads 1. -/
def Obligations.FrameBufferWriteEmptiesStream : Prop :=
  ∀ (s : State) (i : Nat) (data : Word), s.busy = false → i < Config.nFB →
    ∃ t : State, s.hostAccess (.write (0x100 + i) data) = t ∧
      t.fbByte i = data.extractLsb' 0 8 ∧ (∀ j, j ≠ i → t.fbByte j = s.fbByte j) ∧
      t.sbits = 0 ∧ t.slen = 0 ∧ t.sempty = true ∧
      t = { s with fb := t.fb, sbits := 0, slen := 0 }

/-- A host write to `FL[i]` while BUSY = 0 stores the word (R31): every other word of FL, all of FB and every other field,
the stream among them, are unchanged. -/
def Obligations.FormatListWriteStores : Prop :=
  ∀ (s : State) (i : Nat) (data : Word), s.busy = false → i < Config.nFL →
    ∃ t : State, s.hostAccess (.write (0x010 + i) data) = t ∧
      t.flWord i = data ∧ (∀ j, j ≠ i → t.flWord j = s.flWord j) ∧ t = { s with fl := t.fl }

/-- The register map (R34), for an access while BUSY = 0: what each word address reads as, and what a write to it does. A
read changes nothing but the host's read data (R68). -/
def Obligations.RegisterMap : Prop :=
  ∀ (s : State) (a : Nat) (d : Word), s.busy = false →
    s.hostAccess (.read a) = { s with readData :=
      if a = 0x001 then s.status
      else if a = 0x002 then s.arg0
      else if a = 0x003 then s.arg1
      else if a = 0x004 then s.res
      else if a = 0x005 then s.errKind
      else if a = 0x006 then s.errInfo0
      else if a = 0x007 then s.errInfo1
      else if a = 0x008 then s.sbits
      else if a = 0x009 then s.slen
      else if a = 0x00A then s.flen
      else if a = 0x00B then s.matchIdx
      else if a = 0x00C then s.matchFmt
      else if a = 0x00D then s.outLen
      else if a = 0x00E then s.lrcAcc.setWidth 32
      else if 0x010 ≤ a ∧ a ≤ 0x01F then s.flWord (a - 0x010)
      else if 0x100 ≤ a ∧ a ≤ 0x1FF then (s.fbByte (a - 0x100)).setWidth 32
      else if 0x800 ≤ a ∧ a ≤ 0xFFF then (s.outByte (a - 0x800)).setWidth 32
      else 0 } ∧
    s.hostAccess (.write a d) =
      (if a = 0x000 then s.acceptCommand d
      else if a = 0x002 then { s with arg0 := d }
      else if a = 0x003 then { s with arg1 := d }
      else if a = 0x00A then { s with flen := d }
      else if 0x010 ≤ a ∧ a ≤ 0x01F then s.writeFL (a - 0x010) d
      else if 0x100 ≤ a ∧ a ≤ 0x1FF then s.writeFB (a - 0x100) (d.setWidth 8)
      else s)

/-- The reset state (R45), as the host reads it. The contents of FB, FL and OUT are free values (log 7, 8). -/
def Obligations.ResetStateValues : Prop :=
  State.reset.status = 0x00000010 ∧ State.reset.arg0 = 0 ∧ State.reset.arg1 = 0 ∧ State.reset.res = 0 ∧
  State.reset.errKind = 0 ∧ State.reset.errInfo0 = 0 ∧ State.reset.errInfo1 = 0 ∧
  State.reset.sbits = 0 ∧ State.reset.slen = 0 ∧ State.reset.flen = 0 ∧
  State.reset.matchIdx = 0xFFFFFFFF ∧ State.reset.matchFmt = 0 ∧ State.reset.outLen = 0 ∧
  State.reset.lrcAcc = 0 ∧ State.reset.phase = .idle ∧
  ∀ i, State.reset.fbByte i = Config.unwrittenFB 0 i ∧ State.reset.flWord i = Config.unwrittenFL 0 i ∧
    State.reset.outByte i = Config.unspecifiedOUT 0 i

/-- Reset as a turn, from every state, in the middle of a command too: "no epilogue runs, and the state is the reset state"
(R320, R321); FB, FL and OUT are drawn anew. That the schedule and the host's read data stay is the model's choice (log 3). -/
def Obligations.ResetTurnGivesResetState : Prop :=
  ∀ (s : State) (rest : List Input), s.inputs = .reset :: rest →
    ∃ t, step s = .next t ∧
      t = { State.reset with
        inputs := rest, readData := s.readData
        resetDraw := s.draws, outDraw := s.draws, draws := s.draws + 1 } ∧
      ∀ i, t.fbByte i = Config.unwrittenFB s.draws i ∧ t.flWord i = Config.unwrittenFL s.draws i ∧
        t.outByte i = Config.unspecifiedOUT s.draws i

/-- The result of each command issued first after reset (R322). -/
def Obligations.FirstCommandAfterReset : Prop :=
  engineStep (State.reset.acceptCommand 0x00) = .next (State.reset.endOk 0) ∧
  engineStep (State.reset.acceptCommand 0x01) = .next (State.reset.endOk 0) ∧
  engineStep (State.reset.acceptCommand 0x10) = .next (State.reset.endOk 0) ∧
  engineStep (State.reset.acceptCommand 0x11) = .next (State.reset.endOk 0) ∧
  engineStep (State.reset.acceptCommand 0x12) = .next (State.reset.endOk 0xFF) ∧
  engineStep (State.reset.acceptCommand 0x13) = .next (State.reset.endOk 1) ∧
  engineStep (State.reset.acceptCommand 0x18) = .next (State.reset.endOk 0) ∧
  engineStep (State.reset.acceptCommand 0x19) = .next (State.reset.endOk 0) ∧
  engineStep (State.reset.acceptCommand 0x1A) = .next (State.reset.endOk 0) ∧
  engineStep (State.reset.acceptCommand 0x1B) = .next (State.reset.endOk 0x40) ∧
  engineStep (State.reset.acceptCommand 0x20) = .next (State.reset.endRefused 2) ∧
  engineStep (State.reset.acceptCommand 0x21) =
    .next (State.reset.recordNoMatch.endError .noFormatsProvided)

/-! ## The stream and the primitives -/

/-- Stream bit `i` is bit `7 - (i mod 8)` of `FB[i div 8]`, as the rule's own formula (R62). -/
def Obligations.StreamBitOrder : Prop :=
  ∀ (s : State) (i : Nat),
    (s.stream.bit i).toNat = (s.fbByte (i / 8)).toNat / 2 ^ (7 - i % 8) % 2 ∧
    s.stream.bitCount = s.sbits.toNat

/-- `MemRead(o, w)` (R64): OutOfRange exactly when `o + w > SBITS`, as a natural sum; else the bits in order. -/
def Obligations.MemReadBits : Prop :=
  ∀ (st : Stream) (o w : Nat),
    (memRead st o w = none ↔ o + w > st.bitCount) ∧
    (∀ l, memRead st o w = some l → l.length = w ∧ ∀ k (h : k < l.length), l[k] = st.bit (o + k))

/-- `exLSB` and `exMSB` (R150, R152): the sums of the rules; both below `2^w`; `exMSB` of an aligned byte is the byte, and
`exMSB` of five bits is `rev5` of `exLSB`. The windows of the decoders, where they lie in the stream, are made of them: Track1's
is `exLSB` of 7 bits, complemented under inversion (R181 lines 4, 5, 15, 16); Track2's `canon` is `exLSB` of 5 bits, reversed
under MSB-first order and then complemented under inversion (R201), so `exMSB` under MSB-first order alone; Custom's is
`exLSB` or `exMSB` by LSBF, complemented within its width under INV (R242, R243). -/
def Obligations.WindowAssembly : Prop :=
  (∀ (st : Stream) (o w : Nat), w ≤ 8 →
    (exLsb st o w = none ↔ o + w > st.bitCount) ∧ (exMsb st o w = none ↔ o + w > st.bitCount) ∧
    (∀ v, exLsb st o w = some v →
      v.toNat = ((List.range w).map fun k => (st.bit (o + k)).toNat * 2 ^ k).sum ∧ v.toNat < 2 ^ w) ∧
    (∀ v, exMsb st o w = some v →
      v.toNat = ((List.range w).map fun k => (st.bit (o + k)).toNat * 2 ^ (w - 1 - k)).sum ∧ v.toNat < 2 ^ w) ∧
    (w = 8 → o % 8 = 0 → o + 8 ≤ st.bitCount → exMsb st o w = some (st.byte (o / 8))) ∧
    (w = 5 → exMsb st o w = (exLsb st o w).map rev5)) ∧
  (∀ (inv : Bool) (st : Stream) (o : Nat), o + 7 ≤ st.bitCount →
    (exLsb st o 7).map (fun v => if inv then v ^^^ 0x7F#8 else v) = some (t1Window inv st o)) ∧
  (∀ (par : T2Params) (st : Stream) (o : Nat), o + 5 ≤ st.bitCount →
    (exLsb st o 5).map (fun v =>
      let u := if par.msb then rev5 v else v
      if par.inv then u ^^^ 0x1F#8 else u) = some (canon par st o) ∧
    (par.msb = true → par.inv = false → exMsb st o 5 = some (canon par st o))) ∧
  (∀ (f : FormatSpec) (st : Stream) (o : Nat), 1 ≤ f.bitsPerChar → f.bitsPerChar ≤ 8 →
    o + f.bitsPerChar ≤ st.bitCount →
    (Option.map (fun v =>
      if f.inverted then v ^^^ BitVec.ofNat 8 (2 ^ f.bitsPerChar - 1) else v)
      (if f.lsbFirst then exLsb st o f.bitsPerChar else exMsb st o f.bitsPerChar)) = some (customWindow f st o))

/-- EXTRACT_LSB (R151): CMD = 0x10; refused, OutOfRange, or RES = `exLSB(offset, width)` as the sum of R150. Nothing else
changes but the epilogue's registers; no array is written. -/
def Obligations.ExtractLsbResult : Prop :=
  decodeCommand 0x00000010 = .ok .extractLsb ∧
  ∀ s : State,
    (s.arg1.toNat > 8 → exec .extractLsb s = .next (s.endRefused 2)) ∧
    (s.arg1.toNat ≤ 8 → s.arg0.toNat + s.arg1.toNat > s.sbits.toNat →
      exec .extractLsb s = .next (s.endError .outOfRange)) ∧
    (s.arg1.toNat ≤ 8 → s.arg0.toNat + s.arg1.toNat ≤ s.sbits.toNat →
      exec .extractLsb s = .next (s.endOk (BitVec.ofNat 32
        ((List.range s.arg1.toNat).map fun k => (s.stream.bit (s.arg0.toNat + k)).toNat * 2 ^ k).sum)))

/-- EXTRACT_MSB (R153): as EXTRACT_LSB, with the sum of R152 and CMD = 0x11. -/
def Obligations.ExtractMsbResult : Prop :=
  decodeCommand 0x00000011 = .ok .extractMsb ∧
  ∀ s : State,
    (s.arg1.toNat > 8 → exec .extractMsb s = .next (s.endRefused 2)) ∧
    (s.arg1.toNat ≤ 8 → s.arg0.toNat + s.arg1.toNat > s.sbits.toNat →
      exec .extractMsb s = .next (s.endError .outOfRange)) ∧
    (s.arg1.toNat ≤ 8 → s.arg0.toNat + s.arg1.toNat ≤ s.sbits.toNat →
      exec .extractMsb s = .next (s.endOk (BitVec.ofNat 32
        ((List.range s.arg1.toNat).map fun k =>
          (s.stream.bit (s.arg0.toNat + k)).toNat * 2 ^ (s.arg1.toNat - 1 - k)).sum)))

/-- INVERT (R156): CMD = 0x12; RES = 255 - byte (R155); refused when ARG0[31:8] is not 0. -/
def Obligations.InvertResult : Prop :=
  decodeCommand 0x00000012 = .ok .invert ∧
  ∀ s : State,
    (s.arg0.toNat < 256 → exec .invert s = .next (s.endOk (BitVec.ofNat 32 (255 - s.arg0.toNat)))) ∧
    (256 ≤ s.arg0.toNat → exec .invert s = .next (s.endRefused 2))

/-- CHECK_PARITY (R158): CMD = 0x13; RES by the count of ones among the low `width` bits of the value (R157); refused outside
the operands' domain. -/
def Obligations.CheckParityResult : Prop :=
  decodeCommand 0x00000013 = .ok .checkParity ∧
  ∀ s : State,
    let width := s.arg1.toNat % 16
    let mode := s.arg1.toNat / 16
    let count := (List.range width).countP fun k => s.arg0.getLsbD k
    (s.arg0.toNat ≥ 256 ∨ width > 8 ∨ mode > 2 → exec .checkParity s = .next (s.endRefused 2)) ∧
    (s.arg0.toNat < 256 → width ≤ 8 → mode = 0 → exec .checkParity s = .next (s.endOk 1)) ∧
    (s.arg0.toNat < 256 → width ≤ 8 → mode = 1 →
      exec .checkParity s = .next (s.endOk (BitVec.ofNat 32 (count % 2)))) ∧
    (s.arg0.toNat < 256 → width ≤ 8 → mode = 2 →
      exec .checkParity s = .next (s.endOk (BitVec.ofNat 32 ((count + 1) % 2))))

/-- The weights of the two checksums (R160, R161): `lrcT2` is a 5-bit value with an even number of ones, `lrcT1` a 7-bit
value with an odd number, and both start from the XOR of the characters. -/
def Obligations.ChecksumWeights : Prop :=
  lrcT2 [] = 0 ∧ lrcT1 [] = 0x40 ∧
  ∀ chars : List Byte,
    (lrcT2 chars).toNat < 32 ∧ popcount (lrcT2 chars) % 2 = 0 ∧
    (lrcT2 chars &&& 0x0F = chars.foldl (· ^^^ ·) 0 &&& 0x0F) ∧
    (lrcT1 chars).toNat < 128 ∧ popcount (lrcT1 chars) % 2 = 1 ∧
    (lrcT1 chars &&& 0x3F = chars.foldl (· ^^^ ·) 0 &&& 0x3F)

/-- LRC_CLR and LRC_PUSH (R162, R163): CMD = 0x18 and 0x19; LRCACC becomes 0, or its XOR with the character; an operand above 8
bits is refused. After LRC_CLR and the pushes of any list, LRCACC is the list's XOR. Nothing but LRCACC, ARG0 (written by
the host between pushes) and the epilogue's registers changes. -/
def Obligations.LrcAccumulates : Prop :=
  decodeCommand 0x00000018 = .ok .lrcClr ∧ decodeCommand 0x00000019 = .ok .lrcPush ∧
  ∀ s : State,
    exec .lrcClr s = .next { s.endOk 0 with lrcAcc := 0 } ∧
    (s.arg0.toNat < 256 →
      exec .lrcPush s = .next { s.endOk 0 with lrcAcc := s.lrcAcc ^^^ BitVec.ofNat 8 s.arg0.toNat }) ∧
    (256 ≤ s.arg0.toNat → exec .lrcPush s = .next (s.endRefused 2)) ∧
    ∀ chars : List Byte, ∃ p : State,
      pushChars chars { s.endOk 0 with lrcAcc := 0 } = .next p ∧
      p = { s.endOk 0 with lrcAcc := chars.foldl (· ^^^ ·) 0, arg0 := p.arg0 }

/-- LRC_FIN_T2 and LRC_FIN_T1 (R164, R165): in every state they answer a next state, with LRCACC and all else but the epilogue's
registers unchanged, and RES is the 5-bit value of even weight with LRCACC's low four bits, and the 7-bit value of odd weight
with LRCACC's low six; after LRC_CLR and the pushes of any list, RES is `lrcT2`, and `lrcT1`, of the list (for `lrcT2` an
inference the spec marks as its own). -/
def Obligations.LrcFinishesComputeChecksums : Prop :=
  ∀ s : State,
    (∃ r : Byte, r.toNat < 32 ∧ popcount r % 2 = 0 ∧ r &&& 0x0F = s.lrcAcc &&& 0x0F ∧
      exec .lrcFinT2 s = .next (s.endOk (r.setWidth 32))) ∧
    (∃ r : Byte, r.toNat < 128 ∧ popcount r % 2 = 1 ∧ r &&& 0x3F = s.lrcAcc &&& 0x3F ∧
      exec .lrcFinT1 s = .next (s.endOk (r.setWidth 32))) ∧
    ∀ (chars : List Byte) (p : State), pushChars chars { s.endOk 0 with lrcAcc := 0 } = .next p →
      exec .lrcFinT2 p = .next (p.endOk ((lrcT2 chars).setWidth 32)) ∧
      exec .lrcFinT1 p = .next (p.endOk ((lrcT1 chars).setWidth 32))

/-- BS_NEW (R130): CMD = 0x01; refused, LengthMismatch with the empty stream left, or the stream of `bit_count` bits. FB, FL and
every field not named are unchanged. -/
def Obligations.BsNewResult : Prop :=
  decodeCommand 0x00000001 = .ok .bsNew ∧
  ∀ s : State,
    let required := (s.arg1.toNat + 7) / 8
    (s.arg0.toNat > Config.nFB → exec .bsNew s = .next (s.endRefused 2)) ∧
    (s.arg0.toNat ≤ Config.nFB → required > s.arg0.toNat →
      exec .bsNew s = .next (({ s with sbits := 0, slen := 0 } : State).endError
        (.lengthMismatch required s.arg0.toNat))) ∧
    (s.arg0.toNat ≤ Config.nFB → required ≤ s.arg0.toNat →
      exec .bsNew s = .next (({ s with
        sbits := s.arg1, slen := BitVec.ofNat 32 required } : State).endOk 0))

/-- NOP (R260): CMD = 0; the success epilogue with RES = 0, in every state; so after a failed command and NOP, STATUS is 0x06
plus SEMPTY and the error registers are 0. -/
def Obligations.NopClearsRecord : Prop :=
  decodeCommand 0x00000000 = .ok .nop ∧
  ∀ s : State, ∃ t, exec .nop s = .next t ∧
    t = { s with
      phase := .idle, done := true, ok := true, rej := false, rejCode := 0, res := 0
      errKind := 0, errInfo0 := 0, errInfo1 := 0 } ∧
    t.status.toNat = 0x06 + (if s.sbits = 0 then 0x10 else 0)

/-- The rendering of the stream (R132), position by position: bit `k` stands at place `k + k / 8` as the character 0x30 or 0x31,
a delimiter stands before each group of 8 but the first, and nothing else is in it. Without its delimiters it is the bits.
The delimiter is open (log 11). -/
def Obligations.RenderingShowsTheBits : Prop :=
  ∀ st : Stream,
    (∀ k, k < st.bitCount → st.render[k + k / 8]? = some (if st.bit k then 0x31#8 else 0x30#8)) ∧
    (∀ j, 1 ≤ j → 8 * j < st.bitCount → st.render[9 * j - 1]? = some delim) ∧
    st.render.length = st.bitCount + (st.bitCount - 1) / 8 ∧
    (st.render.filter fun x => x ≠ delim) =
      (List.range st.bitCount).map (fun i => if st.bit i then 0x31#8 else 0x30#8)

/-! ## The decoders -/

/-- A Track1 stream shorter than 21 bits (R181 line 1), and a non-raw Track2 stream shorter than 15 (R204), fails before any bit
is read, requiring 21 or 15. -/
def Obligations.MinimumLengths : Prop :=
  ∀ (st : Stream) (inv : Bool) (span : LrcSpan) (par : T2Params),
    (st.bitCount < 21 → decodeT1 inv st = .error (.bitstreamTooShort st.bitCount 21)) ∧
    (st.bitCount < 15 → par.raw = false →
      decodeT2Span span par st = .error (.bitstreamTooShort st.bitCount 15))

/-- Round-trip framing of Track1 (R181; 95_test_vectors.md S-4, first row), for both polarities: filler windows of odd
parity that are no start sentinel, a start sentinel, data characters of odd parity that are no end sentinel, an end
sentinel and the checksum decode to exactly the data characters, whatever follows. -/
def Obligations.Track1RoundTrip : Prop :=
  ∀ (inv : Bool) (st : Stream) (filler data : List Byte) (ss es : Byte),
    (∀ c ∈ filler, parityOk c 7 .odd = true ∧ c &&& 0x3F ≠ 0x05) →
    parityOk ss 7 .odd = true → ss &&& 0x3F = 0x05 →
    data ≠ [] → (∀ c ∈ data, parityOk c 7 .odd = true ∧ c &&& 0x3F ≠ 0x1F) →
    parityOk es 7 .odd = true → es &&& 0x3F = 0x1F →
    let frame := filler ++ [ss] ++ data ++ [es] ++ [lrcT1 ([ss] ++ data ++ [es])]
    7 * frame.length ≤ st.bitCount →
    (∀ k (h : k < frame.length), t1Window inv st (7 * k) = frame[k]) →
    decodeT1 inv st = .ok (data.map fun c => 0x20 + (c &&& 0x3F))

/-- Round-trip framing of the non-raw, odd-parity Track2 family (R206 to R209; S-4), for every polarity, wire order and
checksum span: a frame whose start sentinel is the first match of the search decodes to its data characters, whatever
stands before and after it. -/
def Obligations.Track2RoundTrip : Prop :=
  ∀ (span : LrcSpan) (par : T2Params) (st : Stream) (lock : Nat) (data : List Byte),
    par.raw = false → par.even = false →
    data ≠ [] → (∀ c ∈ data, parityOk c 5 .odd = true ∧ c ≠ 0x1F) →
    let chars : List Byte := match span with
      | .exclEs => 0x0B :: data
      | .inclEs => 0x0B :: data ++ [0x1F]
    let check : Byte := if par.inv then lrcT2 chars ^^^ 0x1F else lrcT2 chars
    let frame : List Byte := 0x0B :: data ++ [0x1F, check]
    lock + 5 * frame.length ≤ st.bitCount →
    (∀ o, o < lock → canon par st o ≠ 0x0B) →
    (∀ k (h : k < frame.length), canon par st (lock + 5 * k) = frame[k]) →
    decodeT2Span span par st = .ok (data.map fun c => 0x30 + (c &&& 0x0F))

/-- The bit-slip search (R206): it answers the least offset from 0 to `SBITS - 5` whose canonical window is 0x0B, and none
when there is none. -/
def Obligations.SearchFindsFirstSentinel : Prop :=
  ∀ (par : T2Params) (st : Stream),
    (∀ o, t2Search par st = some o ↔
      o + 5 ≤ st.bitCount ∧ canon par st o = 0x0B ∧ ∀ o', o' < o → canon par st o' ≠ 0x0B) ∧
    (t2Search par st = none ↔ ∀ o, o + 5 ≤ st.bitCount → canon par st o ≠ 0x0B)

/-- "a stream whose bits are all equal never matches" (R206(e), R221): no non-raw decoder of the family finds a start
sentinel in it, whatever its polarity, wire order, parity and checksum span. -/
def Obligations.UniformStreamNeverLocks : Prop :=
  ∀ (span : LrcSpan) (par : T2Params) (st : Stream) (b : Bool),
    par.raw = false → 15 ≤ st.bitCount → (∀ i, i < st.bitCount → st.bit i = b) →
    decodeT2Span span par st = .error .invalidStartSentinel

/-- Raw mode (R203, R215): the first window of wrong parity is the error; else every aligned window is a character; else, with
no whole window, the empty-result failure with the open count (log 10). -/
def Obligations.Track2RawResult : Prop :=
  ∀ (span : LrcSpan) (par : T2Params) (st : Stream), par.raw = true →
    decodeT2Span span par st =
      match (List.range (st.bitCount / 5)).find? fun k => !parityOk (canon par st (5 * k)) 5 par.mode with
      | some k => .error (.parityError k)
      | none =>
        if st.bitCount < 5 then .error (.noValidFormat Config.emptyAttempted)
        else .ok ((List.range (st.bitCount / 5)).map fun k => 0x30 + (canon par st (5 * k) &&& 0x0F))

/-- The swapped-parity flag is inert (R105, R202), so TRACK2_SWP decodes every stream as TRACK2 does; so do TRACK2_LSB and
TRACK3 (R214, R216, R218). -/
def Obligations.InertVariantsDecodeAsTrack2 : Prop :=
  (∀ (span : LrcSpan) (par : T2Params) (b : Bool) (st : Stream),
    decodeT2Span span { par with swp := b } st = decodeT2Span span par st) ∧
  ∀ st : Stream,
    decodeFormat .track2Swp st = decodeFormat .track2 st ∧
    decodeFormat .track2Lsb st = decodeFormat .track2 st ∧
    decodeFormat .track3 st = decodeFormat .track2 st

/-- TRACK2_EVEN never succeeds (R217, an inference the spec marks as its own, from its decisions D12 and D20). -/
def Obligations.Track2EvenNeverSucceeds : Prop :=
  ∀ st : Stream,
    (st.bitCount < 15 ∧ decodeTrack2Even st = .error (.bitstreamTooShort st.bitCount 15)) ∨
    (15 ≤ st.bitCount ∧ decodeTrack2Even st = .error .invalidStartSentinel) ∨
    (15 ≤ st.bitCount ∧ decodeTrack2Even st = .error (.parityError 0))

/-- TRACK1_INV on a stream is TRACK1 on its bitwise complement over the first `7 × floor(SBITS / 7)` bits (R183, an inference
the spec marks as its own). -/
def Obligations.Track1InvDecodesComplement : Prop :=
  ∀ st st' : Stream, st'.bitCount = st.bitCount →
    (∀ i, i < 7 * (st.bitCount / 7) → st'.bit i = !st.bit i) →
    decodeTrack1Inv st = decodeTrack1 st'

/-- A Custom frame decodes to its characters (R240 to R246): filler windows that are no start sentinel, the start sentinel,
data windows, and the end sentinel, which no data window equals; every window passes the parity test of the FormatSpec.
With no start sentinel configured the data begins at window 0. With an end sentinel, what follows it is not looked at; with
none, the data is every window up to the last whole one. -/
def Obligations.CustomRoundTrip : Prop :=
  ∀ (f : FormatSpec) (st : Stream) (filler data : List Byte) (str : List Byte),
    1 ≤ f.bitsPerChar → f.bitsPerChar ≤ 8 →
    (∀ v ∈ filler, v ≠ f.startSentinel) → (f.endValid = true → ∀ v ∈ data, v ≠ f.endSentinel) →
    data.mapM (customChar f.bitsPerChar) = some str → str ≠ [] →
    let frame := (if f.startValid then filler ++ [f.startSentinel] else []) ++ data ++
      (if f.endValid then [f.endSentinel] else [])
    (∀ v ∈ frame, parityOk v f.bitsPerChar f.parity = true) →
    f.bitsPerChar * frame.length ≤ st.bitCount →
    (f.endValid = false → frame.length = st.bitCount / f.bitsPerChar) →
    (∀ k (h : k < frame.length), customWindow f st (f.bitsPerChar * k) = frame[k]) →
    decodeCustom f st = .ok str

/-- Custom's character decode by width (R247). -/
def Obligations.CustomCharacterTable : Prop :=
  ∀ v : Byte,
    customChar 5 v = some (0x30 + (v &&& 0x0F)) ∧ customChar 7 v = some (0x20 + (v &&& 0x3F)) ∧
    customChar 8 v = some v ∧
    ∀ w ∈ [1, 2, 3, 4, 6],
      (v.toNat ≤ 9 → customChar w v = some (BitVec.ofNat 8 (0x30 + v.toNat))) ∧
      (9 < v.toNat → customChar w v = none)

/-- A FormatSpec whose width is 0 or above 8 is rejected on every stream alike (R240), and CUSTOM with a legal width never
raises that error. -/
def Obligations.CustomWidthCheck : Prop :=
  ∀ (f : FormatSpec) (st : Stream),
    (f.bitsPerChar = 0 ∨ 8 < f.bitsPerChar → decodeCustom f st = .error (.invalidCustomFormat 1)) ∧
    (1 ≤ f.bitsPerChar → f.bitsPerChar ≤ 8 → ∀ r, decodeCustom f st ≠ .error (.invalidCustomFormat r))

/-- Which errors each decoder can raise (R305's second table, with R184 and R209: no InvalidCharacter from Track1 or the
Track2 family; C3: never LengthMismatch or OutOfRange), and a success is never empty (R29) nor longer than the stream. -/
def Obligations.DecoderOutcomes : Prop :=
  ∀ (st : Stream),
    (∀ (inv : Bool) (e : Err), decodeT1 inv st = .error e → e.code.toNat ∈ [2, 3, 4, 5, 6, 7]) ∧
    (∀ (span : LrcSpan) (par : T2Params) (e : Err), par.raw = false → decodeT2Span span par st = .error e →
      e.code.toNat ∈ [2, 3, 4, 5, 6, 7]) ∧
    (∀ (span : LrcSpan) (par : T2Params) (e : Err), par.raw = true → decodeT2Span span par st = .error e →
      e.code.toNat ∈ [2, 4]) ∧
    (∀ (f : FormatSpec) (e : Err), decodeCustom f st = .error e → e.code.toNat ∈ [2, 4, 5, 6, 8, 9]) ∧
    (∀ (i : Instr) (str : List Byte), decodeFormat i st = some (.ok str) →
      1 ≤ str.length ∧ str.length ≤ st.bitCount)

/-! ## The sequencer -/

/-- One attempt of each descriptor, TRACK1, TRACK1_INV, TRACK2, TRACK2_INV, TRACK2_MSB, TRACK2_LSB, TRACK2_RAW,
TRACK2_SWP, TRACK2_EVEN, TRACK3 and CUSTOM. First, which decoder it runs, with which parameters: the table of R261, its
parameters in the order inv, msb, raw, swp, even, at the spec's checksum span (log 12). Then what becomes of the decoder's
result (R262, R263), in every state a next state: a success ends the command with the string, its length, the index and the
instruction's word, which is the word fetched (log 16); a failure moves DECODE_LIST's FPC on, and ends DECODE_ONE with the
decoder's own error. FB, FL and every field not named are unchanged. The model's own choice in this: OUT's open elements get
a new draw where the command ends (log 6, log 8), and a failed attempt of DECODE_LIST, being one move (log 2), leaves the
model's OUT as it is, though R33 lets it have written there (log 8). -/
def Obligations.DescriptorAttempt : Prop :=
  (∀ st : Stream,
    decodeFormat .track1 st = some (decodeT1 false st) ∧
    decodeFormat .track1Inv st = some (decodeT1 true st) ∧
    decodeFormat .track2 st = some (decodeT2Span .exclEs ⟨false, false, false, false, false⟩ st) ∧
    decodeFormat .track2Inv st = some (decodeT2Span .exclEs ⟨true, false, false, false, false⟩ st) ∧
    decodeFormat .track2Msb st = some (decodeT2Span .exclEs ⟨false, true, false, false, false⟩ st) ∧
    decodeFormat .track2Lsb st = some (decodeT2Span .exclEs ⟨false, false, false, false, false⟩ st) ∧
    decodeFormat .track2Raw st = some (decodeT2Span .exclEs ⟨false, false, true, false, false⟩ st) ∧
    decodeFormat .track2Swp st = some (decodeT2Span .exclEs ⟨false, false, false, true, false⟩ st) ∧
    decodeFormat .track2Even st = some (decodeT2Span .exclEs ⟨false, false, false, false, true⟩ st) ∧
    decodeFormat .track3 st = some (decodeT2Span .exclEs ⟨false, false, false, false, false⟩ st) ∧
    ∀ f, decodeFormat (.custom f) st = some (decodeCustom f st)) ∧
  ∀ (i : Instr) (s : State), i.isCommand = false →
    (∃ t, exec i s = .next t) ∧
    ∃ r, decodeFormat i s.stream = some r ∧
      (∀ str, r = .ok str →
        (s.phase = .one → exec i s = .next (({ s with
          out := str, outLen := BitVec.ofNat 32 str.length, matchIdx := s.arg0, matchFmt := encode i
          outDraw := s.draws, draws := s.draws + 1 } : State).endOk 0)) ∧
        (∀ fpc, s.phase = .list fpc → exec i s = .next (({ s with
          out := str, outLen := BitVec.ofNat 32 str.length, matchIdx := BitVec.ofNat 32 fpc, matchFmt := encode i
          outDraw := s.draws, draws := s.draws + 1 } : State).endOk 0))) ∧
      (∀ e, r = .error e →
        (s.phase = .one → exec i s = .next (({ s with
          out := [], outLen := 0, matchIdx := 0xFFFFFFFF, matchFmt := 0
          outDraw := s.draws, draws := s.draws + 1 } : State).endError e)) ∧
        (∀ fpc, s.phase = .list fpc → exec i s = .next { s with phase := .list (fpc + 1) }))

/-- DECODE_ONE (R262): refused on its operand, refused on an illegal descriptor, or accepted; then the engine's next move
ends in the state R262 gives. The attempt as a move of its own, and the new draw of OUT's open elements, are the model's
own choice (log 2, log 6, log 8). -/
def Obligations.DecodeOneRefinesRule : Prop :=
  ∀ s : State,
    (s.flen.toNat > Config.nFL ∨ s.arg0.toNat ≥ s.flen.toNat → exec .decodeOne s = .next (s.endRefused 2)) ∧
    (s.flen.toNat ≤ Config.nFL → s.arg0.toNat < s.flen.toNat →
      (legalDescriptor (s.flWord s.arg0.toNat) = false → exec .decodeOne s = .next (s.endRefused 3)) ∧
      (legalDescriptor (s.flWord s.arg0.toNat) = true →
        ∃ t, exec .decodeOne s = .next t ∧ t = { s with phase := .one } ∧
          engineStep t = .next (atomicDecodeOne s)))

/-- DECODE_LIST (R263): refused on FLEN, refused on an illegal descriptor anywhere in the list, NoFormatsProvided on the
empty list, or accepted; then the engine's moves, attempt by attempt, end in the state that R263's loop gives. The
moves, and the new draw of OUT's open elements, are the model's own choice (log 2, log 6, log 8). -/
def Obligations.DecodeListRefinesRule : Prop :=
  ∀ s : State,
    (s.flen.toNat > Config.nFL → exec .decodeList s = .next (s.endRefused 2)) ∧
    (s.flen.toNat ≤ Config.nFL →
      ((∃ k, k < s.flen.toNat ∧ legalDescriptor (s.flWord k) = false) →
        exec .decodeList s = .next (s.endRefused 3)) ∧
      ((∀ k, k < s.flen.toNat → legalDescriptor (s.flWord k) = true) →
        (s.flen = 0 → exec .decodeList s = .next (s.recordNoMatch.endError .noFormatsProvided)) ∧
        (s.flen ≠ 0 →
          ∃ t, exec .decodeList s = .next t ∧ t = { s with phase := .list 0 } ∧
            engineRun (s.flen.toNat + 1) t = .next (atomicDecodeList s))))

/-- DECODE_LIST and DECODE_ONE agree (R268, an inference the spec marks as its own): if attempt `j` is the first that
succeeds, the list ends with exactly the match and string of DECODE_ONE `j`; if none does, with NoValidFormat(FLEN). The
moves, and the new draw of OUT's open elements, are the model's own choice (log 2, log 6, log 8). -/
def Obligations.DecodeListAgreesWithDecodeOne : Prop :=
  ∀ s : State, 0 < s.flen.toNat → s.flen.toNat ≤ Config.nFL →
    (∀ k, k < s.flen.toNat → legalDescriptor (s.flWord k) = true) →
    ∃ t, engineRun (s.flen.toNat + 1) { s with phase := .list 0 } = .next t ∧
      (∀ j u, j < s.flen.toNat →
        engineStep { s with phase := .one, arg0 := BitVec.ofNat 32 j } = .next u → u.ok = true →
        (∀ k v, k < j → engineStep { s with phase := .one, arg0 := BitVec.ofNat 32 k } = .next v → v.ok = false) →
        t.ok = true ∧ SameMatch t u) ∧
      ((∀ k v, k < s.flen.toNat →
          engineStep { s with phase := .one, arg0 := BitVec.ofNat 32 k } = .next v → v.ok = false) →
        t = s.recordNoMatch.endError (.noValidFormat s.flen))

/-- FPC (R40): while DECODE_LIST runs, a move of the engine adds 1 to it or ends the command: a failed attempt adds 1, a success
ends it with the index in MATCH_IDX, and at FPC = FLEN it ends with FLEN in ERR_INFO0. That an attempt is one move is log 2's
choice, and that a move which adds 1 leaves all of OUT, its open elements included, is log 2's and log 8's: R33 lets a
failed attempt have written there. -/
def Obligations.FormatCounterMoves : Prop :=
  ∀ (s t : State) (fpc : Nat), s.phase = .list fpc → engineStep s = .next t →
    (t.phase = .list (fpc + 1) ∨ t.phase = .idle) ∧
    (t.phase = .list (fpc + 1) → t = { s with phase := .list (fpc + 1) } ∧ fpc < s.flen.toNat) ∧
    (∀ i e, fpc < s.flen.toNat → decodeDescriptor (s.flWord fpc) = .ok i →
      decodeFormat i s.stream = some (.error e) → t.phase = .list (fpc + 1)) ∧
    (∀ i str, fpc < s.flen.toNat → decodeDescriptor (s.flWord fpc) = .ok i →
      decodeFormat i s.stream = some (.ok str) →
      t.phase = .idle ∧ t.ok = true ∧ t.matchIdx = BitVec.ofNat 32 fpc) ∧
    (s.flen.toNat ≤ fpc → t.phase = .idle ∧ t.errKind = 2 ∧ t.errInfo0 = s.flen)

/-- After a successful decode the host reads the string from OUT, character by character, and its length from OUT_LEN (R29,
R33, R34); an element at or above OUT_LEN reads as its free value (U1; log 8). -/
def Obligations.OutReadsAsTheString : Prop :=
  ∀ (s : State) (idx fmt : Word) (str : List Byte) (k : Nat), str.length ≤ Config.nOUT → k < Config.nOUT →
    let t := ((s.recordMatch idx fmt str).endOk 0).hostAccess (.read (0x800 + k))
    (∀ h : k < str.length, t.readData = (str[k]).setWidth 32) ∧
    (str.length ≤ k → t.readData = (Config.unspecifiedOUT s.draws k).setWidth 32) ∧
    (((s.recordMatch idx fmt str).endOk 0).hostAccess (.read 0x00D)).readData.toNat = str.length

/-! ## The machine -/

/-- What an instruction leaves unchanged (R21, R27, R30, R71, R166, R304): FB, FL, FLEN, ARG0 and ARG1 by every
instruction; LRCACC by all but LRC_CLR and LRC_PUSH; the stream by all but BS_NEW; OUT, OUT_LEN, MATCH_IDX and MATCH_FMT
by every command but DECODE_LIST. Two parts of this are the model's own choice. That the unspecified elements of OUT stay
put too is log 8's, which calls it unsafe: the spec lets them have any value. And for DECODE_ONE the clause is about the
move that makes its checks, not about the attempt that follows, which writes all four (log 2). The model's own schedule,
read data and reset draw are unchanged as well. -/
def Obligations.EngineFrame : Prop :=
  ∀ (i : Instr) (s t : State), exec i s = .next t →
    t.fb = s.fb ∧ t.fl = s.fl ∧ (∀ a, t.fbByte a = s.fbByte a) ∧ (∀ k, t.flWord k = s.flWord k) ∧
    t.flen = s.flen ∧ t.arg0 = s.arg0 ∧ t.arg1 = s.arg1 ∧
    t.inputs = s.inputs ∧ t.readData = s.readData ∧ t.resetDraw = s.resetDraw ∧
    (i ≠ .lrcClr → i ≠ .lrcPush → t.lrcAcc = s.lrcAcc) ∧
    (i ≠ .bsNew → t.sbits = s.sbits ∧ t.slen = s.slen) ∧
    (i.isCommand = true → i ≠ .decodeList →
      SameMatch t s ∧ (∀ a, t.outByte a = s.outByte a) ∧ t.draws = s.draws)

/-- No command stops the machine, and none ends otherwise than its row of R305's first table says. DECODE_ONE and DECODE_LIST
that pass their checks are followed to their end: by the one attempt, and by the attempts and the exit (the moves of the
engine, log 2). -/
def Obligations.CommandOutcomes : Prop :=
  ∀ (i : Instr) (s : State), i.isCommand = true → ∃ t, exec i s = .next t ∧
    let success := fun u : State =>
      u.phase = .idle ∧ u.done = true ∧ u.ok = true ∧ u.rej = false ∧ u.errKind = 0
    let error := fun (u : State) (kinds : List Word) =>
      u.phase = .idle ∧ u.done = true ∧ u.ok = false ∧ u.rej = false ∧ u.res = 0 ∧ u.errKind ∈ kinds
    let refused := fun (u : State) (codes : List (BitVec 8)) =>
      u.phase = .idle ∧ u.done = true ∧ u.ok = false ∧ u.rej = true ∧ u.errKind = 0 ∧ u.res = 0 ∧ u.rejCode ∈ codes
    (i ∈ [.nop, .lrcClr, .lrcFinT2, .lrcFinT1] → success t) ∧
    (i ∈ [.invert, .checkParity, .lrcPush] → success t ∨ refused t [2]) ∧
    (i = .bsNew → success t ∨ error t [16] ∨ refused t [2]) ∧
    (i ∈ [.extractLsb, .extractMsb] → success t ∨ error t [17] ∨ refused t [2]) ∧
    (i = .decodeOne → refused t [2, 3] ∨
      (t.phase = .one ∧ ∃ u, engineStep t = .next u ∧ (success u ∨ error u [2, 3, 4, 5, 6, 7, 8, 9]))) ∧
    (i = .decodeList → refused t [2, 3] ∨ error t [1] ∨
      (t.phase = .list 0 ∧ ∃ u, engineRun (t.flen.toNat + 1) t = .next u ∧ (success u ∨ error u [2])))

/-- The invariant holds after reset (R133: "The invariant holds after reset"; R45). -/
def Obligations.InvariantAtReset : Prop := State.reset.Inv

/-- Every step keeps the invariant: the arrays' canonical form, the stream invariant of R133, OUT_LEN and OUT, the match
registers of R270, the record of R267, the sequencer's range of R40, the freshness of draws (log 6). -/
def Obligations.EveryStepKeepsInvariant : Prop :=
  ∀ s t : State, s.Inv → step s = .next t → t.Inv

/-- The machine never stops: from every state of the invariant a step, whatever its turn is, answers a next state, with
neither a fault nor a refusal of the model. -/
def Obligations.MachineNeverStops : Prop :=
  ∀ s : State, s.Inv → Completes (step s)

/-- "Every command therefore ends: BUSY is 1 for a finite time" (R340): from every state of the invariant the engine alone
reaches BUSY = 0 within N_FL + 2 moves (the bound in moves is the model's own, log 2). -/
def Obligations.EveryCommandEnds : Prop :=
  ∀ s : State, s.Inv → ∃ n t, n ≤ Config.nFL + 2 ∧ engineRun n s = .next t ∧ t.busy = false

/-- A command's results are a function of the stream's bits, FL within FLEN, the operands and LRCACC (R43, R63): two states
that agree on these, whatever else FB, FL and OUT hold, move alike, record alike, and report the same match. Only BS_NEW,
which takes new bytes of FB into the stream, may leave streams that differ. -/
def Obligations.ResultsDependOnlyOnTheStream : Prop :=
  ∀ s t s' : State, s.Inv → t.Inv → SameInputs s t → SameRecord s t → engineStep s = .next s' →
    ∃ t', engineStep t = .next t' ∧ SameRecord s' t' ∧
      s'.sbits = t'.sbits ∧ s'.slen = t'.slen ∧ s'.lrcAcc = t'.lrcAcc ∧ s'.phase = t'.phase ∧
      (s.phase ≠ .command 0x01 → SameInputs s' t') ∧
      (s.phase = .one ∨ (∃ fpc, s.phase = .list fpc) → s'.phase = .idle → SameMatch s' t')

/-! ## What each decoder answers, on every stream -/

/-- Track1 on every stream (R181), for both polarities. Below 21 bits it is too short. Else the windows are read in order: the
first that has even weight or the start sentinel's data decides between ParityError, with its index, and the start; with
none there is no start sentinel. After the start, the first that has even weight or the end sentinel's data decides between
ParityError and the end; with none there is no end sentinel. After the end the checksum window must lie in the stream and
equal `lrcT1` of the characters from the start through the end sentinel, and there must be a data character. Line 21's
InvalidCharacter does not occur (R184). The count of the empty result is open (log 10). -/
def Obligations.Track1Result : Prop :=
  ∀ (inv : Bool) (st : Stream),
    let n := st.bitCount / 7
    let w := fun k => t1Window inv st (7 * k)
    let odd := fun k => parityOk (w k) 7 .odd
    decodeT1 inv st =
      if st.bitCount < 21 then .error (.bitstreamTooShort st.bitCount 21)
      else
        match (List.range n).find? fun k => !odd k || (w k &&& 0x3F#8) == 0x05#8 with
        | none => .error .invalidStartSentinel
        | some a =>
          if odd a = false then .error (.parityError a)
          else
            match (List.range n).find? fun k => decide (a < k) && (!odd k || (w k &&& 0x3F#8) == 0x1F#8) with
            | none => .error .invalidEndSentinel
            | some b =>
              if odd b = false then .error (.parityError b)
              else if 7 * (b + 1) + 7 > st.bitCount then .error (.bitstreamTooShort st.bitCount (7 * (b + 1) + 7))
              else if w (b + 1) ≠ lrcT1 ((List.range (b + 1 - a)).map fun k => w (a + k)) then .error .checksumFailed
              else if b = a + 1 then .error (.noValidFormat Config.emptyAttempted)
              else .ok ((List.range (b - a - 1)).map fun k => 0x20#8 + (w (a + 1 + k) &&& 0x3F#8))

/-- The non-raw Track2 family on every stream (R204, R206 to R208), for every polarity, wire order, parity mode and checksum
span. Below 15 bits it is too short. With no offset whose window is 0x0B there is no start sentinel. From the first such
offset the windows are read at steps of 5: the first of wrong parity or equal to 0x1F decides between ParityError, with its
index from the lock, and the end; with none there is no end sentinel. After the end the checksum window must lie in the
stream and equal the check of the span's characters, and there must be a data character. The count of the empty result is
open (log 10). -/
def Obligations.Track2Result : Prop :=
  ∀ (span : LrcSpan) (par : T2Params) (st : Stream), par.raw = false →
    decodeT2Span span par st =
      if st.bitCount < 15 then .error (.bitstreamTooShort st.bitCount 15)
      else
        match (List.range (st.bitCount - 4)).find? fun o => canon par st o == 0x0B#8 with
        | none => .error .invalidStartSentinel
        | some lock =>
          let w := fun k => canon par st (lock + 5 * k)
          let good := fun k => parityOk (w k) 5 (if par.even then .even else .odd)
          match (List.range ((st.bitCount - lock) / 5)).find? fun k => !good k || w k == 0x1F#8 with
          | none => .error .invalidEndSentinel
          | some b =>
            let chars := (List.range (if span = .inclEs then b + 1 else b)).map w
            let check := if par.inv then lrcT2 chars ^^^ 0x1F#8 else lrcT2 chars
            if good b = false then .error (.parityError b)
            else if lock + 5 * (b + 1) + 5 > st.bitCount then
              .error (.bitstreamTooShort st.bitCount (lock + 5 * (b + 1) + 5))
            else if w (b + 1) ≠ check then .error .checksumFailed
            else if b = 1 then .error (.noValidFormat Config.emptyAttempted)
            else .ok ((List.range (b - 1)).map fun k => 0x30#8 + (w (k + 1) &&& 0x0F#8))

/-- Custom on every stream and FormatSpec (R246). A width outside 1 to 8 is InvalidCustomFormat. Else the windows are read in
order. Before the start sentinel, where one is configured, the first window of wrong parity or equal to it decides between
ParityError, with its index, and the start; with none there is no start sentinel. From there on the first window that has
wrong parity, is the end sentinel of a FormatSpec that has one, or is no character of the width decides between ParityError,
the end, and InvalidCharacter with its index and value. With none, a configured end sentinel is missing, and else the scan
ends at the last whole window. An end with no character before it is the empty result, with the open count (log 10). -/
def Obligations.CustomResult : Prop :=
  ∀ (f : FormatSpec) (st : Stream),
    let width := f.bitsPerChar
    let n := st.bitCount / width
    let w := fun k => customWindow f st (width * k)
    let good := fun k => parityOk (w k) width f.parity
    let isEnd := fun k => f.endValid && w k == f.endSentinel
    let finish : Nat → Nat → DecodeResult := fun p b =>
      if b = p then .error (.noValidFormat Config.emptyAttempted)
      else .ok ((List.range (b - p)).filterMap fun k => customChar width (w (p + k)))
    let body : Nat → DecodeResult := fun p =>
      match (List.range n).find? fun k =>
          decide (p ≤ k) && (!good k || isEnd k || (customChar width (w k)).isNone) with
      | none => if f.endValid then .error .invalidEndSentinel else finish p n
      | some b =>
        if good b = false then .error (.parityError b)
        else if isEnd b then finish p b
        else .error (.invalidCharacter b (w b).toNat)
    decodeCustom f st =
      if width = 0 ∨ 8 < width then .error (.invalidCustomFormat 1)
      else if f.startValid then
        match (List.range n).find? fun k => !good k || w k == f.startSentinel with
        | none => .error .invalidStartSentinel
        | some a => if good a = false then .error (.parityError a) else body (a + 1)
      else body 0
end

