-- ==== Sys2Proof/Laws/Bits.lean ====
section
/-! SUPPORT. The bit operations on bytes: ranges, weights, and the two checksum fix-ups (41_primitives.md R155 to R165). -/

namespace Sys2Proof.Machine

theorem popcount_le (v : Byte) : popcount v ≤ 8 := by
  unfold popcount
  exact le_trans List.countP_le_length (by simp)

theorem invertByte_toNat (b : Byte) : (invertByte b).toNat = 255 - b.toNat := by
  revert b; decide +kernel

theorem rev5_rev5 (v : Byte) : rev5 (rev5 v) = v &&& 0x1F#8 := by
  revert v; decide +kernel

theorem rev5_invertWidth (v : Byte) : rev5 (invertWidth 5 v) = invertWidth 5 (rev5 v) := by
  revert v; decide +kernel

theorem lrcFixT2_spec (v : Byte) :
    (lrcFixT2 v).toNat < 32 ∧ popcount (lrcFixT2 v) % 2 = 0 ∧ lrcFixT2 v &&& 0x0F#8 = v &&& 0x0F#8 := by
  revert v; decide +kernel

theorem lrcFixT1_spec (v : Byte) :
    (lrcFixT1 v).toNat < 128 ∧ popcount (lrcFixT1 v) % 2 = 1 ∧ lrcFixT1 v &&& 0x3F#8 = v &&& 0x3F#8 := by
  revert v; decide +kernel

/-- XOR commutes with masking, for the whole list (R164, R165). -/
theorem foldl_xor_mask (m : Byte) (l : List Byte) (a : Byte) :
    l.foldl (fun x c => x ^^^ (c &&& m)) (a &&& m) = l.foldl (· ^^^ ·) a &&& m := by
  induction l generalizing a with
  | nil => rfl
  | cons b l ih =>
    simp only [List.foldl_cons]
    rw [← ih]
    congr 1
    ext i hi
    simp only [BitVec.getElem_xor, BitVec.getElem_and]
    cases a[i] <;> cases b[i] <;> cases m[i] <;> rfl

theorem lrcFixT2_mask (v : Byte) : lrcFixT2 (v &&& 0x1F#8) = lrcFixT2 v := by
  revert v; decide +kernel

theorem lrcFixT1_mask (v : Byte) : lrcFixT1 (v &&& 0x3F#8) = lrcFixT1 v := by
  revert v; decide +kernel

theorem lrcT2_eq (l : List Byte) : lrcT2 l = lrcFixT2 (l.foldl (· ^^^ ·) 0) := by
  have h := foldl_xor_mask 0x1F#8 l 0
  rw [show (0 : Byte) &&& 0x1F#8 = 0 by decide] at h
  unfold lrcT2; rw [h, lrcFixT2_mask]

theorem lrcT1_eq (l : List Byte) : lrcT1 l = lrcFixT1 (l.foldl (· ^^^ ·) 0) := by
  have h := foldl_xor_mask 0x3F#8 l 0
  rw [show (0 : Byte) &&& 0x3F#8 = 0 by decide] at h
  unfold lrcT1; rw [h, lrcFixT1_mask]

end Sys2Proof.Machine
end

