-- ==== Sys2Proof/Laws/Decoders.lean ====
section
/-! SUPPORT. One turn of each decoder's scan as an equation without local definitions, so that a proof by induction over the
windows left rewrites with it and does not unfold the scan. -/

namespace Sys2Proof.Machine

/-- One window of the Track1 scan (42_track1.md R181 lines 4 to 24). -/
theorem t1Scan_succ (inv : Bool) (st : Stream) (n p idx : Nat) (found : Bool) (chars str : List Byte) :
    t1Scan inv st (n + 1) p idx found chars str =
      if parityOk (t1Window inv st p) 7 .odd = false then .error (.parityError idx)
      else if found = false then
        (if t1Data (t1Window inv st p) = 0x05#8 then
          t1Scan inv st n (p + 7) (idx + 1) true [t1Window inv st p] str
        else t1Scan inv st n (p + 7) (idx + 1) false chars str)
      else if t1Data (t1Window inv st p) = 0x1F#8 then
        t1Checksum inv st (p + 7) (chars ++ [t1Window inv st p]) str
      else if 0x20#8 + t1Data (t1Window inv st p) < 0x20#8 ∨ 0x20#8 + t1Data (t1Window inv st p) > 0x5F#8 then
        .error (.invalidCharacter idx (t1Window inv st p).toNat)
      else t1Scan inv st n (p + 7) (idx + 1) true (chars ++ [t1Window inv st p])
        (str ++ [0x20#8 + t1Data (t1Window inv st p)]) := by
  rw [t1Scan]
  cases parityOk (t1Window inv st p) 7 .odd <;> cases found <;> rfl

/-- A Track1 data character lies in 0x20 to 0x5F, so the InvalidCharacter arm is never taken (R184). -/
theorem t1Data_range (x : Byte) : ¬ (0x20#8 + t1Data x < 0x20#8 ∨ 0x20#8 + t1Data x > 0x5F#8) := by
  unfold t1Data; revert x; decide +kernel

/-- One window of the locked Track2 scan (43_track2.md R207 lines 4 to 10). -/
theorem t2Scan_succ (span : LrcSpan) (par : T2Params) (st : Stream) (n p idx : Nat) (chars str : List Byte) :
    t2Scan span par st (n + 1) p idx chars str =
      if parityOk (canon par st p) 5 par.mode = false then .error (.parityError idx)
      else if canon par st p = 0x1F#8 then t2Checksum span par st p (canon par st p) chars str
      else t2Scan span par st n (p + 5) (idx + 1) (chars ++ [canon par st p])
        (if idx > 0 then str ++ [t2Char (canon par st p)] else str) := by
  rw [t2Scan]
  cases parityOk (canon par st p) 5 par.mode <;> rfl

/-- One window of raw mode (43_track2.md R203). -/
theorem t2Raw_succ (par : T2Params) (st : Stream) (n p idx : Nat) (str : List Byte) :
    t2Raw par st (n + 1) p idx str =
      if parityOk (canon par st p) 5 par.mode = false then .error (.parityError idx)
      else t2Raw par st n (p + 5) (idx + 1) (str ++ [t2Char (canon par st p)]) := by
  rw [t2Raw]
  cases parityOk (canon par st p) 5 par.mode <;> rfl

/-- One window of the Custom scan (44_custom.md R246 lines 4 to 17). -/
theorem customScan_succ (f : FormatSpec) (st : Stream) (n p idx : Nat) (started : Bool) (str : List Byte) :
    customScan f st (n + 1) p idx started str =
      if f.parity ≠ .none ∧ parityOk (customWindow f st p) f.bitsPerChar f.parity = false then
        .error (.parityError idx)
      else if started = false then
        customScan f st n (p + f.bitsPerChar) (idx + 1) (customWindow f st p == f.startSentinel) str
      else if f.endValid = true ∧ customWindow f st p = f.endSentinel then customEnd f started true str
      else
        (customChar f.bitsPerChar (customWindow f st p)).elim
          (.error (.invalidCharacter idx (customWindow f st p).toNat))
          (fun ch => customScan f st n (p + f.bitsPerChar) (idx + 1) true (str ++ [ch])) := by
  rw [customScan]
  simp only [Bool.not_eq_true']
  cases customChar f.bitsPerChar (customWindow f st p) <;> rfl

/-- Searching a range from `k` on, one index at a time: the search that a scan's windows make. -/
theorem find_range_from (n k : Nat) (test : Nat → Bool) :
    (List.range n).find? (fun j => decide (k ≤ j) && test j) =
      if k < n then
        if test k then some k else (List.range n).find? (fun j => decide (k + 1 ≤ j) && test j)
      else none := by
  by_cases hk : k < n
  · rw [if_pos hk]
    cases ht : test k with
    | true =>
      rw [if_pos rfl, List.find?_range_eq_some]
      refine ⟨by simp [ht], List.mem_range.2 hk, fun j hj => ?_⟩
      simp [show ¬ k ≤ j by omega]
    | false =>
      rw [if_neg (by simp)]
      congr 1
      funext j
      by_cases hj : j = k
      · subst hj; simp [ht]
      · rw [decide_eq_decide.2 (show k ≤ j ↔ k + 1 ≤ j by omega)]
  · rw [if_neg hk, List.find?_eq_none]
    intro j hj
    have := List.mem_range.1 hj
    simp [show ¬ k ≤ j by omega]

end Sys2Proof.Machine
end

