-- ==== Sys2Proof/Laws/Memory.lean ====
section
/-! SUPPORT. Sparse memory: read after write, and the canonical form, which every memory operation keeps. -/

namespace Sys2Proof.Machine

variable {α : Type}

theorem Memory.wf_iff (size : Nat) (m : Memory α) :
    Memory.wf size m = true ↔ m.Pairwise (fun a b => a.1 < b.1) ∧ ∀ e ∈ m, e.1 < size := by
  simp [Memory.wf]

theorem Memory.wf_nil (size : Nat) : Memory.wf size ([] : Memory α) = true := by
  simp [Memory.wf]

theorem Memory.read_write_same (m : Memory α) (i : Nat) (v : α) :
    Memory.read (Memory.write m i v) i = some v := by
  induction m with
  | nil => simp [Memory.write, Memory.read]
  | cons e m ih =>
    obtain ⟨k, w⟩ := e
    unfold Memory.write
    split
    · simp [Memory.read]
    · split
      · simp [Memory.read]
      · rename_i h1 h2
        simp [Memory.read, h2, ih]

theorem Memory.read_write_other (m : Memory α) (i j : Nat) (v : α) (h : j ≠ i) :
    Memory.read (Memory.write m i v) j = Memory.read m j := by
  induction m with
  | nil => simp [Memory.write, Memory.read, h]
  | cons e m ih =>
    obtain ⟨k, w⟩ := e
    unfold Memory.write
    split
    · simp [Memory.read, h]
    · split
      · rename_i h1 h2
        subst h2
        simp [Memory.read, h]
      · simp only [Memory.read, ih]

/-- Where the indices of a written memory come from. -/
theorem Memory.mem_write {m : Memory α} {i : Nat} {v : α} {e : Nat × α} (h : e ∈ Memory.write m i v) :
    e = (i, v) ∨ e ∈ m := by
  induction m with
  | nil => simpa [Memory.write] using h
  | cons x m ih =>
    obtain ⟨k, w⟩ := x
    unfold Memory.write at h
    split at h
    · simpa using h
    · split at h
      · rcases List.mem_cons.1 h with h | h <;> simp [h]
      · rcases List.mem_cons.1 h with h | h
        · simp [h]
        · rcases ih h with h | h <;> simp [h]

/-- A write inside the array keeps the canonical form. -/
theorem Memory.wf_write {size : Nat} {m : Memory α} (i : Nat) (v : α) (hm : Memory.wf size m = true)
    (hi : i < size) : Memory.wf size (Memory.write m i v) = true := by
  rw [Memory.wf_iff] at hm ⊢
  obtain ⟨hp, hb⟩ := hm
  refine ⟨?_, fun e he => ?_⟩
  · induction m with
    | nil => simp [Memory.write]
    | cons x m ih =>
      obtain ⟨k, w⟩ := x
      obtain ⟨hk, hp⟩ := List.pairwise_cons.1 hp
      unfold Memory.write
      split
      · rename_i hlt
        refine List.pairwise_cons.2 ⟨fun e he => ?_, List.pairwise_cons.2 ⟨hk, hp⟩⟩
        rcases List.mem_cons.1 he with rfl | he
        · exact hlt
        · exact Nat.lt_trans hlt (hk e he)
      · split
        · rename_i heq
          exact List.pairwise_cons.2 ⟨fun e he => heq ▸ hk e he, hp⟩
        · rename_i h1 h2
          refine List.pairwise_cons.2 ⟨fun e he => ?_, ih hp fun e he => hb e (List.mem_cons_of_mem _ he)⟩
          rcases Memory.mem_write he with rfl | he
          · show k < i
            omega
          · exact hk e he
  · rcases Memory.mem_write he with rfl | he
    · exact hi
    · exact hb e he

theorem State.writeFB_fbByte (s : State) (i : Nat) (b : Byte) (k : Nat) :
    (s.writeFB i b).fbByte k = if k = i then b else s.fbByte k := by
  show (Memory.read (Memory.write s.fb i b) k).getD _ = _
  split
  · subst k; simp [Memory.read_write_same]
  · rename_i h; rw [Memory.read_write_other _ _ _ _ h]; rfl

theorem State.writeFL_flWord (s : State) (i : Nat) (d : Word) (k : Nat) :
    (s.writeFL i d).flWord k = if k = i then d else s.flWord k := by
  show (Memory.read (Memory.write s.fl i d) k).getD _ = _
  split
  · subst k; simp [Memory.read_write_same]
  · rename_i h; rw [Memory.read_write_other _ _ _ _ h]; rfl

/-- A host write into FB keeps FB's canonical form. -/
theorem State.writeFB_fb_wf (s : State) {i : Nat} (b : Byte) (h : Memory.wf Config.nFB s.fb = true)
    (hi : i < Config.nFB) : Memory.wf Config.nFB (s.writeFB i b).fb = true := Memory.wf_write i b h hi

/-- A host write into FL keeps FL's canonical form. -/
theorem State.writeFL_fl_wf (s : State) {i : Nat} (d : Word) (h : Memory.wf Config.nFL s.fl = true)
    (hi : i < Config.nFL) : Memory.wf Config.nFL (s.writeFL i d).fl = true := Memory.wf_write i d h hi

/-- The reset state's arrays are in canonical form. -/
theorem State.reset_memory_wf :
    Memory.wf Config.nFB State.reset.fb = true ∧ Memory.wf Config.nFL State.reset.fl = true :=
  ⟨Memory.wf_nil _, Memory.wf_nil _⟩

end Sys2Proof.Machine
end

