-- ==== Sys2Proof/Laws/State.lean ====
section
/-! SUPPORT. The small lemmas of the state's named updates: one per field and update, and what the updates do to the views
(BUSY, SEMPTY, FB, FL, OUT, the stream). No later proof unfolds a record update. -/

namespace Sys2Proof.Machine

variable (s : State)

/-! ### `setPhase` -/

@[simp] theorem State.setPhase_arg0 (p : Phase) : (s.setPhase p).arg0 = s.arg0 := rfl
@[simp] theorem State.setPhase_arg1 (p : Phase) : (s.setPhase p).arg1 = s.arg1 := rfl
@[simp] theorem State.setPhase_res (p : Phase) : (s.setPhase p).res = s.res := rfl
@[simp] theorem State.setPhase_done (p : Phase) : (s.setPhase p).done = s.done := rfl
@[simp] theorem State.setPhase_ok (p : Phase) : (s.setPhase p).ok = s.ok := rfl
@[simp] theorem State.setPhase_rej (p : Phase) : (s.setPhase p).rej = s.rej := rfl
@[simp] theorem State.setPhase_rejCode (p : Phase) : (s.setPhase p).rejCode = s.rejCode := rfl
@[simp] theorem State.setPhase_errKind (p : Phase) : (s.setPhase p).errKind = s.errKind := rfl
@[simp] theorem State.setPhase_errInfo0 (p : Phase) : (s.setPhase p).errInfo0 = s.errInfo0 := rfl
@[simp] theorem State.setPhase_errInfo1 (p : Phase) : (s.setPhase p).errInfo1 = s.errInfo1 := rfl
@[simp] theorem State.setPhase_sbits (p : Phase) : (s.setPhase p).sbits = s.sbits := rfl
@[simp] theorem State.setPhase_slen (p : Phase) : (s.setPhase p).slen = s.slen := rfl
@[simp] theorem State.setPhase_flen (p : Phase) : (s.setPhase p).flen = s.flen := rfl
@[simp] theorem State.setPhase_matchIdx (p : Phase) : (s.setPhase p).matchIdx = s.matchIdx := rfl
@[simp] theorem State.setPhase_matchFmt (p : Phase) : (s.setPhase p).matchFmt = s.matchFmt := rfl
@[simp] theorem State.setPhase_outLen (p : Phase) : (s.setPhase p).outLen = s.outLen := rfl
@[simp] theorem State.setPhase_lrcAcc (p : Phase) : (s.setPhase p).lrcAcc = s.lrcAcc := rfl
@[simp] theorem State.setPhase_fl (p : Phase) : (s.setPhase p).fl = s.fl := rfl
@[simp] theorem State.setPhase_fb (p : Phase) : (s.setPhase p).fb = s.fb := rfl
@[simp] theorem State.setPhase_out (p : Phase) : (s.setPhase p).out = s.out := rfl
@[simp] theorem State.setPhase_phase (p : Phase) : (s.setPhase p).phase = p := rfl
@[simp] theorem State.setPhase_inputs (p : Phase) : (s.setPhase p).inputs = s.inputs := rfl
@[simp] theorem State.setPhase_readData (p : Phase) : (s.setPhase p).readData = s.readData := rfl
@[simp] theorem State.setPhase_draws (p : Phase) : (s.setPhase p).draws = s.draws := rfl
@[simp] theorem State.setPhase_resetDraw (p : Phase) : (s.setPhase p).resetDraw = s.resetDraw := rfl
@[simp] theorem State.setPhase_outDraw (p : Phase) : (s.setPhase p).outDraw = s.outDraw := rfl
@[simp] theorem State.setPhase_sempty (p : Phase) : (s.setPhase p).sempty = s.sempty := rfl
@[simp] theorem State.setPhase_fbByte (p : Phase) (k : Nat) : (s.setPhase p).fbByte k = s.fbByte k := rfl
@[simp] theorem State.setPhase_flWord (p : Phase) (k : Nat) : (s.setPhase p).flWord k = s.flWord k := rfl
@[simp] theorem State.setPhase_outByte (p : Phase) (k : Nat) : (s.setPhase p).outByte k = s.outByte k := rfl
@[simp] theorem State.setPhase_stream (p : Phase) : (s.setPhase p).stream = s.stream := rfl

/-! ### `prologue` -/

@[simp] theorem State.prologue_arg0 : (s.prologue).arg0 = s.arg0 := rfl
@[simp] theorem State.prologue_arg1 : (s.prologue).arg1 = s.arg1 := rfl
@[simp] theorem State.prologue_res : (s.prologue).res = 0 := rfl
@[simp] theorem State.prologue_done : (s.prologue).done = false := rfl
@[simp] theorem State.prologue_ok : (s.prologue).ok = false := rfl
@[simp] theorem State.prologue_rej : (s.prologue).rej = false := rfl
@[simp] theorem State.prologue_rejCode : (s.prologue).rejCode = 0 := rfl
@[simp] theorem State.prologue_errKind : (s.prologue).errKind = 0 := rfl
@[simp] theorem State.prologue_errInfo0 : (s.prologue).errInfo0 = 0 := rfl
@[simp] theorem State.prologue_errInfo1 : (s.prologue).errInfo1 = 0 := rfl
@[simp] theorem State.prologue_sbits : (s.prologue).sbits = s.sbits := rfl
@[simp] theorem State.prologue_slen : (s.prologue).slen = s.slen := rfl
@[simp] theorem State.prologue_flen : (s.prologue).flen = s.flen := rfl
@[simp] theorem State.prologue_matchIdx : (s.prologue).matchIdx = s.matchIdx := rfl
@[simp] theorem State.prologue_matchFmt : (s.prologue).matchFmt = s.matchFmt := rfl
@[simp] theorem State.prologue_outLen : (s.prologue).outLen = s.outLen := rfl
@[simp] theorem State.prologue_lrcAcc : (s.prologue).lrcAcc = s.lrcAcc := rfl
@[simp] theorem State.prologue_fl : (s.prologue).fl = s.fl := rfl
@[simp] theorem State.prologue_fb : (s.prologue).fb = s.fb := rfl
@[simp] theorem State.prologue_out : (s.prologue).out = s.out := rfl
@[simp] theorem State.prologue_phase : (s.prologue).phase = s.phase := rfl
@[simp] theorem State.prologue_inputs : (s.prologue).inputs = s.inputs := rfl
@[simp] theorem State.prologue_readData : (s.prologue).readData = s.readData := rfl
@[simp] theorem State.prologue_draws : (s.prologue).draws = s.draws := rfl
@[simp] theorem State.prologue_resetDraw : (s.prologue).resetDraw = s.resetDraw := rfl
@[simp] theorem State.prologue_outDraw : (s.prologue).outDraw = s.outDraw := rfl
@[simp] theorem State.prologue_busy : (s.prologue).busy = s.busy := rfl
@[simp] theorem State.prologue_sempty : (s.prologue).sempty = s.sempty := rfl
@[simp] theorem State.prologue_fbByte (k : Nat) : (s.prologue).fbByte k = s.fbByte k := rfl
@[simp] theorem State.prologue_flWord (k : Nat) : (s.prologue).flWord k = s.flWord k := rfl
@[simp] theorem State.prologue_outByte (k : Nat) : (s.prologue).outByte k = s.outByte k := rfl
@[simp] theorem State.prologue_stream : (s.prologue).stream = s.stream := rfl

/-! ### `acceptCommand` -/

@[simp] theorem State.acceptCommand_arg0 (c : Word) : (s.acceptCommand c).arg0 = s.arg0 := rfl
@[simp] theorem State.acceptCommand_arg1 (c : Word) : (s.acceptCommand c).arg1 = s.arg1 := rfl
@[simp] theorem State.acceptCommand_res (c : Word) : (s.acceptCommand c).res = 0 := rfl
@[simp] theorem State.acceptCommand_done (c : Word) : (s.acceptCommand c).done = false := rfl
@[simp] theorem State.acceptCommand_ok (c : Word) : (s.acceptCommand c).ok = false := rfl
@[simp] theorem State.acceptCommand_rej (c : Word) : (s.acceptCommand c).rej = false := rfl
@[simp] theorem State.acceptCommand_rejCode (c : Word) : (s.acceptCommand c).rejCode = 0 := rfl
@[simp] theorem State.acceptCommand_errKind (c : Word) : (s.acceptCommand c).errKind = 0 := rfl
@[simp] theorem State.acceptCommand_errInfo0 (c : Word) : (s.acceptCommand c).errInfo0 = 0 := rfl
@[simp] theorem State.acceptCommand_errInfo1 (c : Word) : (s.acceptCommand c).errInfo1 = 0 := rfl
@[simp] theorem State.acceptCommand_sbits (c : Word) : (s.acceptCommand c).sbits = s.sbits := rfl
@[simp] theorem State.acceptCommand_slen (c : Word) : (s.acceptCommand c).slen = s.slen := rfl
@[simp] theorem State.acceptCommand_flen (c : Word) : (s.acceptCommand c).flen = s.flen := rfl
@[simp] theorem State.acceptCommand_matchIdx (c : Word) : (s.acceptCommand c).matchIdx = s.matchIdx := rfl
@[simp] theorem State.acceptCommand_matchFmt (c : Word) : (s.acceptCommand c).matchFmt = s.matchFmt := rfl
@[simp] theorem State.acceptCommand_outLen (c : Word) : (s.acceptCommand c).outLen = s.outLen := rfl
@[simp] theorem State.acceptCommand_lrcAcc (c : Word) : (s.acceptCommand c).lrcAcc = s.lrcAcc := rfl
@[simp] theorem State.acceptCommand_fl (c : Word) : (s.acceptCommand c).fl = s.fl := rfl
@[simp] theorem State.acceptCommand_fb (c : Word) : (s.acceptCommand c).fb = s.fb := rfl
@[simp] theorem State.acceptCommand_out (c : Word) : (s.acceptCommand c).out = s.out := rfl
@[simp] theorem State.acceptCommand_phase (c : Word) : (s.acceptCommand c).phase = .command c := rfl
@[simp] theorem State.acceptCommand_inputs (c : Word) : (s.acceptCommand c).inputs = s.inputs := rfl
@[simp] theorem State.acceptCommand_readData (c : Word) : (s.acceptCommand c).readData = s.readData := rfl
@[simp] theorem State.acceptCommand_draws (c : Word) : (s.acceptCommand c).draws = s.draws := rfl
@[simp] theorem State.acceptCommand_resetDraw (c : Word) : (s.acceptCommand c).resetDraw = s.resetDraw := rfl
@[simp] theorem State.acceptCommand_outDraw (c : Word) : (s.acceptCommand c).outDraw = s.outDraw := rfl
@[simp] theorem State.acceptCommand_busy (c : Word) : (s.acceptCommand c).busy = true := rfl
@[simp] theorem State.acceptCommand_sempty (c : Word) : (s.acceptCommand c).sempty = s.sempty := rfl
@[simp] theorem State.acceptCommand_fbByte (c : Word) (k : Nat) : (s.acceptCommand c).fbByte k = s.fbByte k := rfl
@[simp] theorem State.acceptCommand_flWord (c : Word) (k : Nat) : (s.acceptCommand c).flWord k = s.flWord k := rfl
@[simp] theorem State.acceptCommand_outByte (c : Word) (k : Nat) : (s.acceptCommand c).outByte k = s.outByte k := rfl
@[simp] theorem State.acceptCommand_stream (c : Word) : (s.acceptCommand c).stream = s.stream := rfl

/-! ### `endOk` -/

@[simp] theorem State.endOk_arg0 (r : Word) : (s.endOk r).arg0 = s.arg0 := rfl
@[simp] theorem State.endOk_arg1 (r : Word) : (s.endOk r).arg1 = s.arg1 := rfl
@[simp] theorem State.endOk_res (r : Word) : (s.endOk r).res = r := rfl
@[simp] theorem State.endOk_done (r : Word) : (s.endOk r).done = true := rfl
@[simp] theorem State.endOk_ok (r : Word) : (s.endOk r).ok = true := rfl
@[simp] theorem State.endOk_rej (r : Word) : (s.endOk r).rej = false := rfl
@[simp] theorem State.endOk_rejCode (r : Word) : (s.endOk r).rejCode = 0 := rfl
@[simp] theorem State.endOk_errKind (r : Word) : (s.endOk r).errKind = 0 := rfl
@[simp] theorem State.endOk_errInfo0 (r : Word) : (s.endOk r).errInfo0 = 0 := rfl
@[simp] theorem State.endOk_errInfo1 (r : Word) : (s.endOk r).errInfo1 = 0 := rfl
@[simp] theorem State.endOk_sbits (r : Word) : (s.endOk r).sbits = s.sbits := rfl
@[simp] theorem State.endOk_slen (r : Word) : (s.endOk r).slen = s.slen := rfl
@[simp] theorem State.endOk_flen (r : Word) : (s.endOk r).flen = s.flen := rfl
@[simp] theorem State.endOk_matchIdx (r : Word) : (s.endOk r).matchIdx = s.matchIdx := rfl
@[simp] theorem State.endOk_matchFmt (r : Word) : (s.endOk r).matchFmt = s.matchFmt := rfl
@[simp] theorem State.endOk_outLen (r : Word) : (s.endOk r).outLen = s.outLen := rfl
@[simp] theorem State.endOk_lrcAcc (r : Word) : (s.endOk r).lrcAcc = s.lrcAcc := rfl
@[simp] theorem State.endOk_fl (r : Word) : (s.endOk r).fl = s.fl := rfl
@[simp] theorem State.endOk_fb (r : Word) : (s.endOk r).fb = s.fb := rfl
@[simp] theorem State.endOk_out (r : Word) : (s.endOk r).out = s.out := rfl
@[simp] theorem State.endOk_phase (r : Word) : (s.endOk r).phase = .idle := rfl
@[simp] theorem State.endOk_inputs (r : Word) : (s.endOk r).inputs = s.inputs := rfl
@[simp] theorem State.endOk_readData (r : Word) : (s.endOk r).readData = s.readData := rfl
@[simp] theorem State.endOk_draws (r : Word) : (s.endOk r).draws = s.draws := rfl
@[simp] theorem State.endOk_resetDraw (r : Word) : (s.endOk r).resetDraw = s.resetDraw := rfl
@[simp] theorem State.endOk_outDraw (r : Word) : (s.endOk r).outDraw = s.outDraw := rfl
@[simp] theorem State.endOk_busy (r : Word) : (s.endOk r).busy = false := rfl
@[simp] theorem State.endOk_sempty (r : Word) : (s.endOk r).sempty = s.sempty := rfl
@[simp] theorem State.endOk_fbByte (r : Word) (k : Nat) : (s.endOk r).fbByte k = s.fbByte k := rfl
@[simp] theorem State.endOk_flWord (r : Word) (k : Nat) : (s.endOk r).flWord k = s.flWord k := rfl
@[simp] theorem State.endOk_outByte (r : Word) (k : Nat) : (s.endOk r).outByte k = s.outByte k := rfl
@[simp] theorem State.endOk_stream (r : Word) : (s.endOk r).stream = s.stream := rfl

/-! ### `endError` -/

@[simp] theorem State.endError_arg0 (e : Err) : (s.endError e).arg0 = s.arg0 := rfl
@[simp] theorem State.endError_arg1 (e : Err) : (s.endError e).arg1 = s.arg1 := rfl
@[simp] theorem State.endError_res (e : Err) : (s.endError e).res = 0 := rfl
@[simp] theorem State.endError_done (e : Err) : (s.endError e).done = true := rfl
@[simp] theorem State.endError_ok (e : Err) : (s.endError e).ok = false := rfl
@[simp] theorem State.endError_rej (e : Err) : (s.endError e).rej = false := rfl
@[simp] theorem State.endError_rejCode (e : Err) : (s.endError e).rejCode = 0 := rfl
@[simp] theorem State.endError_errKind (e : Err) : (s.endError e).errKind = e.code := rfl
@[simp] theorem State.endError_errInfo0 (e : Err) : (s.endError e).errInfo0 = e.info0 := rfl
@[simp] theorem State.endError_errInfo1 (e : Err) : (s.endError e).errInfo1 = e.info1 := rfl
@[simp] theorem State.endError_sbits (e : Err) : (s.endError e).sbits = s.sbits := rfl
@[simp] theorem State.endError_slen (e : Err) : (s.endError e).slen = s.slen := rfl
@[simp] theorem State.endError_flen (e : Err) : (s.endError e).flen = s.flen := rfl
@[simp] theorem State.endError_matchIdx (e : Err) : (s.endError e).matchIdx = s.matchIdx := rfl
@[simp] theorem State.endError_matchFmt (e : Err) : (s.endError e).matchFmt = s.matchFmt := rfl
@[simp] theorem State.endError_outLen (e : Err) : (s.endError e).outLen = s.outLen := rfl
@[simp] theorem State.endError_lrcAcc (e : Err) : (s.endError e).lrcAcc = s.lrcAcc := rfl
@[simp] theorem State.endError_fl (e : Err) : (s.endError e).fl = s.fl := rfl
@[simp] theorem State.endError_fb (e : Err) : (s.endError e).fb = s.fb := rfl
@[simp] theorem State.endError_out (e : Err) : (s.endError e).out = s.out := rfl
@[simp] theorem State.endError_phase (e : Err) : (s.endError e).phase = .idle := rfl
@[simp] theorem State.endError_inputs (e : Err) : (s.endError e).inputs = s.inputs := rfl
@[simp] theorem State.endError_readData (e : Err) : (s.endError e).readData = s.readData := rfl
@[simp] theorem State.endError_draws (e : Err) : (s.endError e).draws = s.draws := rfl
@[simp] theorem State.endError_resetDraw (e : Err) : (s.endError e).resetDraw = s.resetDraw := rfl
@[simp] theorem State.endError_outDraw (e : Err) : (s.endError e).outDraw = s.outDraw := rfl
@[simp] theorem State.endError_busy (e : Err) : (s.endError e).busy = false := rfl
@[simp] theorem State.endError_sempty (e : Err) : (s.endError e).sempty = s.sempty := rfl
@[simp] theorem State.endError_fbByte (e : Err) (k : Nat) : (s.endError e).fbByte k = s.fbByte k := rfl
@[simp] theorem State.endError_flWord (e : Err) (k : Nat) : (s.endError e).flWord k = s.flWord k := rfl
@[simp] theorem State.endError_outByte (e : Err) (k : Nat) : (s.endError e).outByte k = s.outByte k := rfl
@[simp] theorem State.endError_stream (e : Err) : (s.endError e).stream = s.stream := rfl

/-! ### `endRefused` -/

@[simp] theorem State.endRefused_arg0 (c : BitVec 8) : (s.endRefused c).arg0 = s.arg0 := rfl
@[simp] theorem State.endRefused_arg1 (c : BitVec 8) : (s.endRefused c).arg1 = s.arg1 := rfl
@[simp] theorem State.endRefused_res (c : BitVec 8) : (s.endRefused c).res = 0 := rfl
@[simp] theorem State.endRefused_done (c : BitVec 8) : (s.endRefused c).done = true := rfl
@[simp] theorem State.endRefused_ok (c : BitVec 8) : (s.endRefused c).ok = false := rfl
@[simp] theorem State.endRefused_rej (c : BitVec 8) : (s.endRefused c).rej = true := rfl
@[simp] theorem State.endRefused_rejCode (c : BitVec 8) : (s.endRefused c).rejCode = c := rfl
@[simp] theorem State.endRefused_errKind (c : BitVec 8) : (s.endRefused c).errKind = 0 := rfl
@[simp] theorem State.endRefused_errInfo0 (c : BitVec 8) : (s.endRefused c).errInfo0 = 0 := rfl
@[simp] theorem State.endRefused_errInfo1 (c : BitVec 8) : (s.endRefused c).errInfo1 = 0 := rfl
@[simp] theorem State.endRefused_sbits (c : BitVec 8) : (s.endRefused c).sbits = s.sbits := rfl
@[simp] theorem State.endRefused_slen (c : BitVec 8) : (s.endRefused c).slen = s.slen := rfl
@[simp] theorem State.endRefused_flen (c : BitVec 8) : (s.endRefused c).flen = s.flen := rfl
@[simp] theorem State.endRefused_matchIdx (c : BitVec 8) : (s.endRefused c).matchIdx = s.matchIdx := rfl
@[simp] theorem State.endRefused_matchFmt (c : BitVec 8) : (s.endRefused c).matchFmt = s.matchFmt := rfl
@[simp] theorem State.endRefused_outLen (c : BitVec 8) : (s.endRefused c).outLen = s.outLen := rfl
@[simp] theorem State.endRefused_lrcAcc (c : BitVec 8) : (s.endRefused c).lrcAcc = s.lrcAcc := rfl
@[simp] theorem State.endRefused_fl (c : BitVec 8) : (s.endRefused c).fl = s.fl := rfl
@[simp] theorem State.endRefused_fb (c : BitVec 8) : (s.endRefused c).fb = s.fb := rfl
@[simp] theorem State.endRefused_out (c : BitVec 8) : (s.endRefused c).out = s.out := rfl
@[simp] theorem State.endRefused_phase (c : BitVec 8) : (s.endRefused c).phase = .idle := rfl
@[simp] theorem State.endRefused_inputs (c : BitVec 8) : (s.endRefused c).inputs = s.inputs := rfl
@[simp] theorem State.endRefused_readData (c : BitVec 8) : (s.endRefused c).readData = s.readData := rfl
@[simp] theorem State.endRefused_draws (c : BitVec 8) : (s.endRefused c).draws = s.draws := rfl
@[simp] theorem State.endRefused_resetDraw (c : BitVec 8) : (s.endRefused c).resetDraw = s.resetDraw := rfl
@[simp] theorem State.endRefused_outDraw (c : BitVec 8) : (s.endRefused c).outDraw = s.outDraw := rfl
@[simp] theorem State.endRefused_busy (c : BitVec 8) : (s.endRefused c).busy = false := rfl
@[simp] theorem State.endRefused_sempty (c : BitVec 8) : (s.endRefused c).sempty = s.sempty := rfl
@[simp] theorem State.endRefused_fbByte (c : BitVec 8) (k : Nat) : (s.endRefused c).fbByte k = s.fbByte k := rfl
@[simp] theorem State.endRefused_flWord (c : BitVec 8) (k : Nat) : (s.endRefused c).flWord k = s.flWord k := rfl
@[simp] theorem State.endRefused_outByte (c : BitVec 8) (k : Nat) : (s.endRefused c).outByte k = s.outByte k := rfl
@[simp] theorem State.endRefused_stream (c : BitVec 8) : (s.endRefused c).stream = s.stream := rfl

/-! ### `setStream` -/

@[simp] theorem State.setStream_arg0 (b n : Word) : (s.setStream b n).arg0 = s.arg0 := rfl
@[simp] theorem State.setStream_arg1 (b n : Word) : (s.setStream b n).arg1 = s.arg1 := rfl
@[simp] theorem State.setStream_res (b n : Word) : (s.setStream b n).res = s.res := rfl
@[simp] theorem State.setStream_done (b n : Word) : (s.setStream b n).done = s.done := rfl
@[simp] theorem State.setStream_ok (b n : Word) : (s.setStream b n).ok = s.ok := rfl
@[simp] theorem State.setStream_rej (b n : Word) : (s.setStream b n).rej = s.rej := rfl
@[simp] theorem State.setStream_rejCode (b n : Word) : (s.setStream b n).rejCode = s.rejCode := rfl
@[simp] theorem State.setStream_errKind (b n : Word) : (s.setStream b n).errKind = s.errKind := rfl
@[simp] theorem State.setStream_errInfo0 (b n : Word) : (s.setStream b n).errInfo0 = s.errInfo0 := rfl
@[simp] theorem State.setStream_errInfo1 (b n : Word) : (s.setStream b n).errInfo1 = s.errInfo1 := rfl
@[simp] theorem State.setStream_sbits (b n : Word) : (s.setStream b n).sbits = b := rfl
@[simp] theorem State.setStream_slen (b n : Word) : (s.setStream b n).slen = n := rfl
@[simp] theorem State.setStream_flen (b n : Word) : (s.setStream b n).flen = s.flen := rfl
@[simp] theorem State.setStream_matchIdx (b n : Word) : (s.setStream b n).matchIdx = s.matchIdx := rfl
@[simp] theorem State.setStream_matchFmt (b n : Word) : (s.setStream b n).matchFmt = s.matchFmt := rfl
@[simp] theorem State.setStream_outLen (b n : Word) : (s.setStream b n).outLen = s.outLen := rfl
@[simp] theorem State.setStream_lrcAcc (b n : Word) : (s.setStream b n).lrcAcc = s.lrcAcc := rfl
@[simp] theorem State.setStream_fl (b n : Word) : (s.setStream b n).fl = s.fl := rfl
@[simp] theorem State.setStream_fb (b n : Word) : (s.setStream b n).fb = s.fb := rfl
@[simp] theorem State.setStream_out (b n : Word) : (s.setStream b n).out = s.out := rfl
@[simp] theorem State.setStream_phase (b n : Word) : (s.setStream b n).phase = s.phase := rfl
@[simp] theorem State.setStream_inputs (b n : Word) : (s.setStream b n).inputs = s.inputs := rfl
@[simp] theorem State.setStream_readData (b n : Word) : (s.setStream b n).readData = s.readData := rfl
@[simp] theorem State.setStream_draws (b n : Word) : (s.setStream b n).draws = s.draws := rfl
@[simp] theorem State.setStream_resetDraw (b n : Word) : (s.setStream b n).resetDraw = s.resetDraw := rfl
@[simp] theorem State.setStream_outDraw (b n : Word) : (s.setStream b n).outDraw = s.outDraw := rfl
@[simp] theorem State.setStream_busy (b n : Word) : (s.setStream b n).busy = s.busy := rfl
@[simp] theorem State.setStream_fbByte (b n : Word) (k : Nat) : (s.setStream b n).fbByte k = s.fbByte k := rfl
@[simp] theorem State.setStream_flWord (b n : Word) (k : Nat) : (s.setStream b n).flWord k = s.flWord k := rfl
@[simp] theorem State.setStream_outByte (b n : Word) (k : Nat) : (s.setStream b n).outByte k = s.outByte k := rfl

/-! ### `setLrcAcc` -/

@[simp] theorem State.setLrcAcc_arg0 (v : Byte) : (s.setLrcAcc v).arg0 = s.arg0 := rfl
@[simp] theorem State.setLrcAcc_arg1 (v : Byte) : (s.setLrcAcc v).arg1 = s.arg1 := rfl
@[simp] theorem State.setLrcAcc_res (v : Byte) : (s.setLrcAcc v).res = s.res := rfl
@[simp] theorem State.setLrcAcc_done (v : Byte) : (s.setLrcAcc v).done = s.done := rfl
@[simp] theorem State.setLrcAcc_ok (v : Byte) : (s.setLrcAcc v).ok = s.ok := rfl
@[simp] theorem State.setLrcAcc_rej (v : Byte) : (s.setLrcAcc v).rej = s.rej := rfl
@[simp] theorem State.setLrcAcc_rejCode (v : Byte) : (s.setLrcAcc v).rejCode = s.rejCode := rfl
@[simp] theorem State.setLrcAcc_errKind (v : Byte) : (s.setLrcAcc v).errKind = s.errKind := rfl
@[simp] theorem State.setLrcAcc_errInfo0 (v : Byte) : (s.setLrcAcc v).errInfo0 = s.errInfo0 := rfl
@[simp] theorem State.setLrcAcc_errInfo1 (v : Byte) : (s.setLrcAcc v).errInfo1 = s.errInfo1 := rfl
@[simp] theorem State.setLrcAcc_sbits (v : Byte) : (s.setLrcAcc v).sbits = s.sbits := rfl
@[simp] theorem State.setLrcAcc_slen (v : Byte) : (s.setLrcAcc v).slen = s.slen := rfl
@[simp] theorem State.setLrcAcc_flen (v : Byte) : (s.setLrcAcc v).flen = s.flen := rfl
@[simp] theorem State.setLrcAcc_matchIdx (v : Byte) : (s.setLrcAcc v).matchIdx = s.matchIdx := rfl
@[simp] theorem State.setLrcAcc_matchFmt (v : Byte) : (s.setLrcAcc v).matchFmt = s.matchFmt := rfl
@[simp] theorem State.setLrcAcc_outLen (v : Byte) : (s.setLrcAcc v).outLen = s.outLen := rfl
@[simp] theorem State.setLrcAcc_lrcAcc (v : Byte) : (s.setLrcAcc v).lrcAcc = v := rfl
@[simp] theorem State.setLrcAcc_fl (v : Byte) : (s.setLrcAcc v).fl = s.fl := rfl
@[simp] theorem State.setLrcAcc_fb (v : Byte) : (s.setLrcAcc v).fb = s.fb := rfl
@[simp] theorem State.setLrcAcc_out (v : Byte) : (s.setLrcAcc v).out = s.out := rfl
@[simp] theorem State.setLrcAcc_phase (v : Byte) : (s.setLrcAcc v).phase = s.phase := rfl
@[simp] theorem State.setLrcAcc_inputs (v : Byte) : (s.setLrcAcc v).inputs = s.inputs := rfl
@[simp] theorem State.setLrcAcc_readData (v : Byte) : (s.setLrcAcc v).readData = s.readData := rfl
@[simp] theorem State.setLrcAcc_draws (v : Byte) : (s.setLrcAcc v).draws = s.draws := rfl
@[simp] theorem State.setLrcAcc_resetDraw (v : Byte) : (s.setLrcAcc v).resetDraw = s.resetDraw := rfl
@[simp] theorem State.setLrcAcc_outDraw (v : Byte) : (s.setLrcAcc v).outDraw = s.outDraw := rfl
@[simp] theorem State.setLrcAcc_busy (v : Byte) : (s.setLrcAcc v).busy = s.busy := rfl
@[simp] theorem State.setLrcAcc_sempty (v : Byte) : (s.setLrcAcc v).sempty = s.sempty := rfl
@[simp] theorem State.setLrcAcc_fbByte (v : Byte) (k : Nat) : (s.setLrcAcc v).fbByte k = s.fbByte k := rfl
@[simp] theorem State.setLrcAcc_flWord (v : Byte) (k : Nat) : (s.setLrcAcc v).flWord k = s.flWord k := rfl
@[simp] theorem State.setLrcAcc_outByte (v : Byte) (k : Nat) : (s.setLrcAcc v).outByte k = s.outByte k := rfl
@[simp] theorem State.setLrcAcc_stream (v : Byte) : (s.setLrcAcc v).stream = s.stream := rfl

/-! ### `recordMatch` -/

@[simp] theorem State.recordMatch_arg0 (x d : Word) (l : List Byte) : (s.recordMatch x d l).arg0 = s.arg0 := rfl
@[simp] theorem State.recordMatch_arg1 (x d : Word) (l : List Byte) : (s.recordMatch x d l).arg1 = s.arg1 := rfl
@[simp] theorem State.recordMatch_res (x d : Word) (l : List Byte) : (s.recordMatch x d l).res = s.res := rfl
@[simp] theorem State.recordMatch_done (x d : Word) (l : List Byte) : (s.recordMatch x d l).done = s.done := rfl
@[simp] theorem State.recordMatch_ok (x d : Word) (l : List Byte) : (s.recordMatch x d l).ok = s.ok := rfl
@[simp] theorem State.recordMatch_rej (x d : Word) (l : List Byte) : (s.recordMatch x d l).rej = s.rej := rfl
@[simp] theorem State.recordMatch_rejCode (x d : Word) (l : List Byte) : (s.recordMatch x d l).rejCode = s.rejCode := rfl
@[simp] theorem State.recordMatch_errKind (x d : Word) (l : List Byte) : (s.recordMatch x d l).errKind = s.errKind := rfl
@[simp] theorem State.recordMatch_errInfo0 (x d : Word) (l : List Byte) : (s.recordMatch x d l).errInfo0 = s.errInfo0 := rfl
@[simp] theorem State.recordMatch_errInfo1 (x d : Word) (l : List Byte) : (s.recordMatch x d l).errInfo1 = s.errInfo1 := rfl
@[simp] theorem State.recordMatch_sbits (x d : Word) (l : List Byte) : (s.recordMatch x d l).sbits = s.sbits := rfl
@[simp] theorem State.recordMatch_slen (x d : Word) (l : List Byte) : (s.recordMatch x d l).slen = s.slen := rfl
@[simp] theorem State.recordMatch_flen (x d : Word) (l : List Byte) : (s.recordMatch x d l).flen = s.flen := rfl
@[simp] theorem State.recordMatch_matchIdx (x d : Word) (l : List Byte) : (s.recordMatch x d l).matchIdx = x := rfl
@[simp] theorem State.recordMatch_matchFmt (x d : Word) (l : List Byte) : (s.recordMatch x d l).matchFmt = d := rfl
@[simp] theorem State.recordMatch_outLen (x d : Word) (l : List Byte) : (s.recordMatch x d l).outLen = BitVec.ofNat Config.xlen l.length := rfl
@[simp] theorem State.recordMatch_lrcAcc (x d : Word) (l : List Byte) : (s.recordMatch x d l).lrcAcc = s.lrcAcc := rfl
@[simp] theorem State.recordMatch_fl (x d : Word) (l : List Byte) : (s.recordMatch x d l).fl = s.fl := rfl
@[simp] theorem State.recordMatch_fb (x d : Word) (l : List Byte) : (s.recordMatch x d l).fb = s.fb := rfl
@[simp] theorem State.recordMatch_out (x d : Word) (l : List Byte) : (s.recordMatch x d l).out = l := rfl
@[simp] theorem State.recordMatch_phase (x d : Word) (l : List Byte) : (s.recordMatch x d l).phase = s.phase := rfl
@[simp] theorem State.recordMatch_inputs (x d : Word) (l : List Byte) : (s.recordMatch x d l).inputs = s.inputs := rfl
@[simp] theorem State.recordMatch_readData (x d : Word) (l : List Byte) : (s.recordMatch x d l).readData = s.readData := rfl
@[simp] theorem State.recordMatch_draws (x d : Word) (l : List Byte) : (s.recordMatch x d l).draws = s.draws + 1 := rfl
@[simp] theorem State.recordMatch_resetDraw (x d : Word) (l : List Byte) : (s.recordMatch x d l).resetDraw = s.resetDraw := rfl
@[simp] theorem State.recordMatch_outDraw (x d : Word) (l : List Byte) : (s.recordMatch x d l).outDraw = s.draws := rfl
@[simp] theorem State.recordMatch_busy (x d : Word) (l : List Byte) : (s.recordMatch x d l).busy = s.busy := rfl
@[simp] theorem State.recordMatch_sempty (x d : Word) (l : List Byte) : (s.recordMatch x d l).sempty = s.sempty := rfl
@[simp] theorem State.recordMatch_fbByte (x d : Word) (l : List Byte) (k : Nat) : (s.recordMatch x d l).fbByte k = s.fbByte k := rfl
@[simp] theorem State.recordMatch_flWord (x d : Word) (l : List Byte) (k : Nat) : (s.recordMatch x d l).flWord k = s.flWord k := rfl
@[simp] theorem State.recordMatch_stream (x d : Word) (l : List Byte) : (s.recordMatch x d l).stream = s.stream := rfl

/-! ### `recordNoMatch` -/

@[simp] theorem State.recordNoMatch_arg0 : (s.recordNoMatch).arg0 = s.arg0 := rfl
@[simp] theorem State.recordNoMatch_arg1 : (s.recordNoMatch).arg1 = s.arg1 := rfl
@[simp] theorem State.recordNoMatch_res : (s.recordNoMatch).res = s.res := rfl
@[simp] theorem State.recordNoMatch_done : (s.recordNoMatch).done = s.done := rfl
@[simp] theorem State.recordNoMatch_ok : (s.recordNoMatch).ok = s.ok := rfl
@[simp] theorem State.recordNoMatch_rej : (s.recordNoMatch).rej = s.rej := rfl
@[simp] theorem State.recordNoMatch_rejCode : (s.recordNoMatch).rejCode = s.rejCode := rfl
@[simp] theorem State.recordNoMatch_errKind : (s.recordNoMatch).errKind = s.errKind := rfl
@[simp] theorem State.recordNoMatch_errInfo0 : (s.recordNoMatch).errInfo0 = s.errInfo0 := rfl
@[simp] theorem State.recordNoMatch_errInfo1 : (s.recordNoMatch).errInfo1 = s.errInfo1 := rfl
@[simp] theorem State.recordNoMatch_sbits : (s.recordNoMatch).sbits = s.sbits := rfl
@[simp] theorem State.recordNoMatch_slen : (s.recordNoMatch).slen = s.slen := rfl
@[simp] theorem State.recordNoMatch_flen : (s.recordNoMatch).flen = s.flen := rfl
@[simp] theorem State.recordNoMatch_matchIdx : (s.recordNoMatch).matchIdx = 0xFFFFFFFF := rfl
@[simp] theorem State.recordNoMatch_matchFmt : (s.recordNoMatch).matchFmt = 0 := rfl
@[simp] theorem State.recordNoMatch_outLen : (s.recordNoMatch).outLen = 0 := rfl
@[simp] theorem State.recordNoMatch_lrcAcc : (s.recordNoMatch).lrcAcc = s.lrcAcc := rfl
@[simp] theorem State.recordNoMatch_fl : (s.recordNoMatch).fl = s.fl := rfl
@[simp] theorem State.recordNoMatch_fb : (s.recordNoMatch).fb = s.fb := rfl
@[simp] theorem State.recordNoMatch_out : (s.recordNoMatch).out = [] := rfl
@[simp] theorem State.recordNoMatch_phase : (s.recordNoMatch).phase = s.phase := rfl
@[simp] theorem State.recordNoMatch_inputs : (s.recordNoMatch).inputs = s.inputs := rfl
@[simp] theorem State.recordNoMatch_readData : (s.recordNoMatch).readData = s.readData := rfl
@[simp] theorem State.recordNoMatch_draws : (s.recordNoMatch).draws = s.draws + 1 := rfl
@[simp] theorem State.recordNoMatch_resetDraw : (s.recordNoMatch).resetDraw = s.resetDraw := rfl
@[simp] theorem State.recordNoMatch_outDraw : (s.recordNoMatch).outDraw = s.draws := rfl
@[simp] theorem State.recordNoMatch_busy : (s.recordNoMatch).busy = s.busy := rfl
@[simp] theorem State.recordNoMatch_sempty : (s.recordNoMatch).sempty = s.sempty := rfl
@[simp] theorem State.recordNoMatch_fbByte (k : Nat) : (s.recordNoMatch).fbByte k = s.fbByte k := rfl
@[simp] theorem State.recordNoMatch_flWord (k : Nat) : (s.recordNoMatch).flWord k = s.flWord k := rfl
@[simp] theorem State.recordNoMatch_stream : (s.recordNoMatch).stream = s.stream := rfl

/-! ### `writeFB` -/

@[simp] theorem State.writeFB_arg0 (i : Nat) (b : Byte) : (s.writeFB i b).arg0 = s.arg0 := rfl
@[simp] theorem State.writeFB_arg1 (i : Nat) (b : Byte) : (s.writeFB i b).arg1 = s.arg1 := rfl
@[simp] theorem State.writeFB_res (i : Nat) (b : Byte) : (s.writeFB i b).res = s.res := rfl
@[simp] theorem State.writeFB_done (i : Nat) (b : Byte) : (s.writeFB i b).done = s.done := rfl
@[simp] theorem State.writeFB_ok (i : Nat) (b : Byte) : (s.writeFB i b).ok = s.ok := rfl
@[simp] theorem State.writeFB_rej (i : Nat) (b : Byte) : (s.writeFB i b).rej = s.rej := rfl
@[simp] theorem State.writeFB_rejCode (i : Nat) (b : Byte) : (s.writeFB i b).rejCode = s.rejCode := rfl
@[simp] theorem State.writeFB_errKind (i : Nat) (b : Byte) : (s.writeFB i b).errKind = s.errKind := rfl
@[simp] theorem State.writeFB_errInfo0 (i : Nat) (b : Byte) : (s.writeFB i b).errInfo0 = s.errInfo0 := rfl
@[simp] theorem State.writeFB_errInfo1 (i : Nat) (b : Byte) : (s.writeFB i b).errInfo1 = s.errInfo1 := rfl
@[simp] theorem State.writeFB_sbits (i : Nat) (b : Byte) : (s.writeFB i b).sbits = 0 := rfl
@[simp] theorem State.writeFB_slen (i : Nat) (b : Byte) : (s.writeFB i b).slen = 0 := rfl
@[simp] theorem State.writeFB_flen (i : Nat) (b : Byte) : (s.writeFB i b).flen = s.flen := rfl
@[simp] theorem State.writeFB_matchIdx (i : Nat) (b : Byte) : (s.writeFB i b).matchIdx = s.matchIdx := rfl
@[simp] theorem State.writeFB_matchFmt (i : Nat) (b : Byte) : (s.writeFB i b).matchFmt = s.matchFmt := rfl
@[simp] theorem State.writeFB_outLen (i : Nat) (b : Byte) : (s.writeFB i b).outLen = s.outLen := rfl
@[simp] theorem State.writeFB_lrcAcc (i : Nat) (b : Byte) : (s.writeFB i b).lrcAcc = s.lrcAcc := rfl
@[simp] theorem State.writeFB_fl (i : Nat) (b : Byte) : (s.writeFB i b).fl = s.fl := rfl
@[simp] theorem State.writeFB_fb (i : Nat) (b : Byte) : (s.writeFB i b).fb = Memory.write s.fb i b := rfl
@[simp] theorem State.writeFB_out (i : Nat) (b : Byte) : (s.writeFB i b).out = s.out := rfl
@[simp] theorem State.writeFB_phase (i : Nat) (b : Byte) : (s.writeFB i b).phase = s.phase := rfl
@[simp] theorem State.writeFB_inputs (i : Nat) (b : Byte) : (s.writeFB i b).inputs = s.inputs := rfl
@[simp] theorem State.writeFB_readData (i : Nat) (b : Byte) : (s.writeFB i b).readData = s.readData := rfl
@[simp] theorem State.writeFB_draws (i : Nat) (b : Byte) : (s.writeFB i b).draws = s.draws := rfl
@[simp] theorem State.writeFB_resetDraw (i : Nat) (b : Byte) : (s.writeFB i b).resetDraw = s.resetDraw := rfl
@[simp] theorem State.writeFB_outDraw (i : Nat) (b : Byte) : (s.writeFB i b).outDraw = s.outDraw := rfl
@[simp] theorem State.writeFB_busy (i : Nat) (b : Byte) : (s.writeFB i b).busy = s.busy := rfl
@[simp] theorem State.writeFB_flWord (i : Nat) (b : Byte) (k : Nat) : (s.writeFB i b).flWord k = s.flWord k := rfl
@[simp] theorem State.writeFB_outByte (i : Nat) (b : Byte) (k : Nat) : (s.writeFB i b).outByte k = s.outByte k := rfl

/-! ### `writeFL` -/

@[simp] theorem State.writeFL_arg0 (i : Nat) (d : Word) : (s.writeFL i d).arg0 = s.arg0 := rfl
@[simp] theorem State.writeFL_arg1 (i : Nat) (d : Word) : (s.writeFL i d).arg1 = s.arg1 := rfl
@[simp] theorem State.writeFL_res (i : Nat) (d : Word) : (s.writeFL i d).res = s.res := rfl
@[simp] theorem State.writeFL_done (i : Nat) (d : Word) : (s.writeFL i d).done = s.done := rfl
@[simp] theorem State.writeFL_ok (i : Nat) (d : Word) : (s.writeFL i d).ok = s.ok := rfl
@[simp] theorem State.writeFL_rej (i : Nat) (d : Word) : (s.writeFL i d).rej = s.rej := rfl
@[simp] theorem State.writeFL_rejCode (i : Nat) (d : Word) : (s.writeFL i d).rejCode = s.rejCode := rfl
@[simp] theorem State.writeFL_errKind (i : Nat) (d : Word) : (s.writeFL i d).errKind = s.errKind := rfl
@[simp] theorem State.writeFL_errInfo0 (i : Nat) (d : Word) : (s.writeFL i d).errInfo0 = s.errInfo0 := rfl
@[simp] theorem State.writeFL_errInfo1 (i : Nat) (d : Word) : (s.writeFL i d).errInfo1 = s.errInfo1 := rfl
@[simp] theorem State.writeFL_sbits (i : Nat) (d : Word) : (s.writeFL i d).sbits = s.sbits := rfl
@[simp] theorem State.writeFL_slen (i : Nat) (d : Word) : (s.writeFL i d).slen = s.slen := rfl
@[simp] theorem State.writeFL_flen (i : Nat) (d : Word) : (s.writeFL i d).flen = s.flen := rfl
@[simp] theorem State.writeFL_matchIdx (i : Nat) (d : Word) : (s.writeFL i d).matchIdx = s.matchIdx := rfl
@[simp] theorem State.writeFL_matchFmt (i : Nat) (d : Word) : (s.writeFL i d).matchFmt = s.matchFmt := rfl
@[simp] theorem State.writeFL_outLen (i : Nat) (d : Word) : (s.writeFL i d).outLen = s.outLen := rfl
@[simp] theorem State.writeFL_lrcAcc (i : Nat) (d : Word) : (s.writeFL i d).lrcAcc = s.lrcAcc := rfl
@[simp] theorem State.writeFL_fl (i : Nat) (d : Word) : (s.writeFL i d).fl = Memory.write s.fl i d := rfl
@[simp] theorem State.writeFL_fb (i : Nat) (d : Word) : (s.writeFL i d).fb = s.fb := rfl
@[simp] theorem State.writeFL_out (i : Nat) (d : Word) : (s.writeFL i d).out = s.out := rfl
@[simp] theorem State.writeFL_phase (i : Nat) (d : Word) : (s.writeFL i d).phase = s.phase := rfl
@[simp] theorem State.writeFL_inputs (i : Nat) (d : Word) : (s.writeFL i d).inputs = s.inputs := rfl
@[simp] theorem State.writeFL_readData (i : Nat) (d : Word) : (s.writeFL i d).readData = s.readData := rfl
@[simp] theorem State.writeFL_draws (i : Nat) (d : Word) : (s.writeFL i d).draws = s.draws := rfl
@[simp] theorem State.writeFL_resetDraw (i : Nat) (d : Word) : (s.writeFL i d).resetDraw = s.resetDraw := rfl
@[simp] theorem State.writeFL_outDraw (i : Nat) (d : Word) : (s.writeFL i d).outDraw = s.outDraw := rfl
@[simp] theorem State.writeFL_busy (i : Nat) (d : Word) : (s.writeFL i d).busy = s.busy := rfl
@[simp] theorem State.writeFL_sempty (i : Nat) (d : Word) : (s.writeFL i d).sempty = s.sempty := rfl
@[simp] theorem State.writeFL_fbByte (i : Nat) (d : Word) (k : Nat) : (s.writeFL i d).fbByte k = s.fbByte k := rfl
@[simp] theorem State.writeFL_outByte (i : Nat) (d : Word) (k : Nat) : (s.writeFL i d).outByte k = s.outByte k := rfl
@[simp] theorem State.writeFL_stream (i : Nat) (d : Word) : (s.writeFL i d).stream = s.stream := rfl

/-! ### Idle and busy -/

theorem State.busy_eq_false_iff : s.busy = false ↔ s.phase = .idle := by
  unfold State.busy; cases s.phase <;> simp

theorem State.busy_eq_true_iff : s.busy = true ↔ s.phase ≠ .idle := by
  unfold State.busy; cases s.phase <;> simp

end Sys2Proof.Machine
end

