-- ==== Sys2Proof/Laws/Stream.lean ====
section
/-! SUPPORT. Windows of the stream: what one holds, when it is in range, how many a scan reads, and that a window depends
on its own bits only. -/

namespace Sys2Proof.Machine

@[simp] theorem State.stream_bitCount (s : State) : s.stream.bitCount = s.sbits.toNat := rfl

@[simp] theorem State.stream_byte (s : State) (i : Nat) : s.stream.byte i = s.fbByte i := rfl

@[simp] theorem Stream.length_bits (st : Stream) (o w : Nat) : (st.bits o w).length = w := by
  simp [Stream.bits]

theorem Stream.getElem_bits (st : Stream) (o w k : Nat) (h : k < (st.bits o w).length) :
    (st.bits o w)[k] = st.bit (o + k) := by
  simp [Stream.bits]

theorem memRead_eq_some_iff (st : Stream) (o w : Nat) (l : List Bool) :
    memRead st o w = some l ↔ o + w ≤ st.bitCount ∧ l = st.bits o w := by
  unfold memRead
  split
  · simp; omega
  · rename_i h
    simp [show o + w ≤ st.bitCount by omega, eq_comm]

theorem memRead_eq_none_iff (st : Stream) (o w : Nat) : memRead st o w = none ↔ o + w > st.bitCount := by
  unfold memRead; split <;> simp_all

theorem exLsb_eq (st : Stream) (o w : Nat) :
    exLsb st o w = if o + w > st.bitCount then none else some (st.windowLsb o w) := by
  unfold exLsb memRead Stream.windowLsb; split <;> simp

theorem exMsb_eq (st : Stream) (o w : Nat) :
    exMsb st o w = if o + w > st.bitCount then none else some (st.windowMsb o w) := by
  unfold exMsb memRead Stream.windowMsb; split <;> simp

theorem bitsLsbFirst_lt (l : List Bool) : bitsLsbFirst l < 2 ^ l.length := by
  induction l with
  | nil => simp [bitsLsbFirst]
  | cons b l ih =>
    have hb : b.toNat ≤ 1 := Bool.toNat_le b
    simp only [bitsLsbFirst, List.foldr_cons, List.length_cons, Nat.pow_succ] at ih ⊢
    omega

/-- The Horner form of `bitsLsbFirst` is the sum of R150. -/
theorem bitsLsbFirst_eq_sum (l : List Bool) :
    bitsLsbFirst l = (l.zipIdx.map fun p => p.1.toNat * 2 ^ p.2).sum := by
  suffices h : ∀ n, 2 ^ n * bitsLsbFirst l = ((l.zipIdx n).map fun p => p.1.toNat * 2 ^ p.2).sum by
    simpa using h 0
  induction l with
  | nil => simp [bitsLsbFirst]
  | cons b l ih =>
    intro n
    simp only [bitsLsbFirst, List.foldr_cons, List.zipIdx_cons, List.map_cons, List.sum_cons] at ih ⊢
    rw [← ih (n + 1)]
    ring

/-- The MSB-first value is the LSB-first value of the reversed bits (R152). -/
theorem bitsMsbFirst_eq_reverse (l : List Bool) : bitsMsbFirst l = bitsLsbFirst l.reverse := by
  simp only [bitsMsbFirst, bitsLsbFirst, List.foldr_reverse]
  congr 1
  funext a b
  omega

/-- How many whole windows are left, seen from the loop test `POS + W <= SBITS`. -/
theorem Stream.windowsFrom_pos_iff (st : Stream) (p w : Nat) (hw : 0 < w) :
    0 < st.windowsFrom p w ↔ p + w ≤ st.bitCount := by
  unfold Stream.windowsFrom
  rw [Nat.div_pos_iff]
  omega

theorem Stream.windowsFrom_succ {st : Stream} {p w n : Nat} (hw : 0 < w) (h : st.windowsFrom p w = n + 1) :
    p + w ≤ st.bitCount ∧ st.windowsFrom (p + w) w = n := by
  have hp := (st.windowsFrom_pos_iff p w hw).1 (by omega)
  refine ⟨hp, ?_⟩
  unfold Stream.windowsFrom at h ⊢
  rw [Nat.div_eq_sub_div hw (by omega)] at h
  rw [show st.bitCount - (p + w) = st.bitCount - p - w by omega]
  omega

/-- A window depends on its own bits only. -/
theorem Stream.bits_congr {st st' : Stream} {o w : Nat} (h : ∀ i, o ≤ i → i < o + w → st.bit i = st'.bit i) :
    st.bits o w = st'.bits o w := by
  refine List.map_congr_left fun k hk => ?_
  rw [List.mem_range] at hk
  exact h _ (by omega) (by omega)

theorem Stream.windowLsb_congr {st st' : Stream} {o w : Nat}
    (h : ∀ i, o ≤ i → i < o + w → st.bit i = st'.bit i) : st.windowLsb o w = st'.windowLsb o w := by
  unfold Stream.windowLsb; rw [Stream.bits_congr h]

theorem Stream.windowMsb_congr {st st' : Stream} {o w : Nat}
    (h : ∀ i, o ≤ i → i < o + w → st.bit i = st'.bit i) : st.windowMsb o w = st'.windowMsb o w := by
  unfold Stream.windowMsb; rw [Stream.bits_congr h]

theorem t1Window_congr {st st' : Stream} (inv : Bool) {p : Nat}
    (h : ∀ i, p ≤ i → i < p + 7 → st.bit i = st'.bit i) : t1Window inv st p = t1Window inv st' p := by
  unfold t1Window; rw [Stream.windowLsb_congr h]

theorem canon_congr {st st' : Stream} (par : T2Params) {p : Nat}
    (h : ∀ i, p ≤ i → i < p + 5 → st.bit i = st'.bit i) : canon par st p = canon par st' p := by
  unfold canon; rw [Stream.windowLsb_congr h]

theorem customWindow_congr {st st' : Stream} (f : FormatSpec) {p : Nat}
    (h : ∀ i, p ≤ i → i < p + f.bitsPerChar → st.bit i = st'.bit i) :
    customWindow f st p = customWindow f st' p := by
  unfold customWindow; rw [Stream.windowLsb_congr h, Stream.windowMsb_congr h]

end Sys2Proof.Machine
end

