-- ==== Sys2Proof/Laws/Ops.lean ====
section
/-! SUPPORT. For each shared operation, what it can do, said once: the operand forms, the attempt, the construction of the
stream, the host's accesses. Later proofs cite these and do not unfold the operation. -/

namespace Sys2Proof.Machine

/-! ### Operand forms (30_encoding.md R92) -/

/-- The bound of a word in numbers, for `omega`, which does not unfold `Config.xlen` (R7). -/
theorem Word.toNat_lt (w : Word) : w.toNat < 4294967296 := w.isLt

theorem extractLsb'_eq_zero_iff (w : Word) (n k : Nat) (h : n + k = Config.xlen) :
    w.extractLsb' n k = 0 ↔ w.toNat < 2 ^ n := by
  rw [← BitVec.toNat_inj]
  have hlt := w.isLt
  simp only [BitVec.extractLsb'_toNat, BitVec.ofNat_eq_ofNat, Nat.shiftRight_eq_div_pow,
    Nat.zero_mod, BitVec.toNat_ofNat]
  rw [Nat.mod_eq_of_lt]
  · rw [Nat.div_eq_zero_iff]
    have : 2 ^ n ≠ 0 := by positivity
    omega
  · rw [Nat.div_lt_iff_lt_mul (by positivity), ← pow_add, Nat.add_comm k, h]
    exact hlt

theorem bsNewOperands_eq (s : State) :
    bsNewOperands s = if s.arg0.toNat ≤ Config.nFB then some (s.arg0.toNat, s.arg1.toNat) else none := by
  unfold bsNewOperands; split <;> split <;> first | rfl | omega

theorem extractOperands_eq (s : State) :
    extractOperands s = if s.arg1.toNat ≤ 8 then some (s.arg0.toNat, s.arg1.toNat) else none := by
  have hl : (s.arg1.extractLsb' 0 4).toNat = s.arg1.toNat % 16 := by
    simp [BitVec.extractLsb'_toNat]
  unfold extractOperands
  simp only [ne_eq, extractLsb'_eq_zero_iff s.arg1 4 28 rfl, hl]
  split
  · rw [if_neg (by omega)]
  · split
    · rw [if_neg (by omega)]
    · rw [if_pos (by omega), Nat.mod_eq_of_lt (by omega)]

theorem byteOperand_eq (s : State) :
    byteOperand s = if s.arg0.toNat < 256 then some (s.arg0.setWidth 8) else none := by
  have hl : s.arg0.extractLsb' 0 8 = s.arg0.setWidth 8 := by
    apply BitVec.eq_of_toNat_eq; simp [BitVec.extractLsb'_toNat]
  unfold byteOperand
  simp only [ne_eq, extractLsb'_eq_zero_iff s.arg0 8 24 rfl, hl]
  split
  · rw [if_neg (by omega)]
  · rw [if_pos (by omega)]

theorem decodeOneOperand_eq (s : State) :
    decodeOneOperand s =
      if s.flen.toNat ≤ Config.nFL ∧ s.arg0.toNat < s.flen.toNat then some s.arg0.toNat else none := by
  unfold decodeOneOperand
  split
  · rw [if_neg (by omega)]
  · split
    · rw [if_neg (by omega)]
    · rw [if_pos (by omega)]

theorem decodeListLength_eq (s : State) :
    decodeListLength s = if s.flen.toNat ≤ Config.nFL then some s.flen.toNat else none := by
  unfold decodeListLength
  split
  · rw [if_neg (by omega)]
  · rw [if_pos (by omega)]

theorem listLegal_iff (s : State) (n : Nat) :
    listLegal s n = true ↔ ∀ k, k < n → legalDescriptor (s.flWord k) = true := by
  simp [listLegal]

/-! ### The construction of the stream (40_bitstream.md R130) -/

/-- All that the body of BS_NEW can do. -/
theorem constructStream_cases (provided bitCount : Nat) (s : State) :
    (bitCount > 8 * provided ∧ constructStream provided bitCount s =
      (s.setStream 0 0).endError (.lengthMismatch (requiredBytes bitCount) provided)) ∨
    (bitCount ≤ 8 * provided ∧ constructStream provided bitCount s =
      (s.setStream (BitVec.ofNat Config.xlen bitCount) (BitVec.ofNat Config.xlen (requiredBytes bitCount))).endOk 0) := by
  unfold constructStream requiredBytes
  split
  · exact .inl ⟨by omega, rfl⟩
  · exact .inr ⟨by omega, rfl⟩

/-! ### The attempt (45_orchestrator.md R262, R263) -/

/-- All that a failed attempt can do. -/
theorem State.attemptFailed_cases (s : State) (e : Err) :
    (∃ fpc, s.phase = .list fpc ∧ s.attemptFailed e = s.setPhase (.list (fpc + 1))) ∨
    ((∀ fpc, s.phase ≠ .list fpc) ∧ s.attemptFailed e = s.recordNoMatch.endError e) := by
  unfold State.attemptFailed
  cases h : s.phase <;> simp

/-- All that an attempt can do: it always answers a next state. -/
theorem attempt_cases (d : Word) (r : DecodeResult) (s : State) :
    (∃ str, r = .ok str ∧ attempt d r s = .next ((s.recordMatch s.attemptIndex d str).endOk 0)) ∨
    (∃ e, r = .error e ∧ attempt d r s = .next (s.attemptFailed e)) := by
  cases r with
  | ok str => exact .inl ⟨str, rfl, rfl⟩
  | error e => exact .inr ⟨e, rfl, rfl⟩

theorem State.attemptIndex_list {s : State} {fpc : Nat} (h : s.phase = .list fpc) :
    s.attemptIndex = BitVec.ofNat Config.xlen fpc := by
  unfold State.attemptIndex; rw [h]

theorem State.attemptIndex_one {s : State} (h : s.phase = .one) : s.attemptIndex = s.arg0 := by
  unfold State.attemptIndex; rw [h]

/-- An empty result is an error, so a success holds at least one character. -/
theorem nonEmpty_cases (str : List Byte) :
    (str = [] ∧ nonEmpty str = .error (.noValidFormat Config.emptyAttempted)) ∨
    (str ≠ [] ∧ nonEmpty str = .ok str) := by
  unfold nonEmpty; split <;> simp_all

/-! ### OUT (10_state.md R33) -/

theorem State.recordMatch_outByte (s : State) (x d : Word) (l : List Byte) (k : Nat) :
    (s.recordMatch x d l).outByte k = l[k]?.getD (Config.unspecifiedOUT s.draws k) := rfl

theorem State.recordNoMatch_outByte (s : State) (k : Nat) :
    s.recordNoMatch.outByte k = Config.unspecifiedOUT s.draws k := rfl

/-! ### The host's accesses (10_state.md R34) -/

/-- All that a host read can do. -/
theorem State.hostRead_cases (s : State) (addr : Nat) :
    (s.busy = true ∧ (hostReg addr).openWhileBusy = true ∧ s.hostRead addr =
      { s with readData := Config.busyRead s.draws addr, draws := s.draws + 1 }) ∨
    ((s.busy = true → (hostReg addr).openWhileBusy = false) ∧
      s.hostRead addr = { s with readData := s.hostView (hostReg addr) }) := by
  unfold State.hostRead
  split
  · rename_i h; simp only [Bool.and_eq_true] at h; exact .inl ⟨h.1, h.2, rfl⟩
  · rename_i h
    refine .inr ⟨fun hb => ?_, rfl⟩
    simpa [hb] using h

/-- All that a host write can do. -/
theorem State.hostWrite_cases (s : State) (addr : Nat) (data : Word) :
    (s.busy = true ∧ s.hostWrite addr data = s) ∨
    (s.busy = false ∧ s.hostWrite addr data = s.hostStore (hostReg addr) data) := by
  unfold State.hostWrite
  cases s.busy <;> simp

/-- The indices the register map gives stay inside their arrays. -/
theorem hostReg_bounds (addr : Nat) :
    (∀ i, hostReg addr = .fl i → i < Config.nFL) ∧ (∀ i, hostReg addr = .fb i → i < Config.nFB) ∧
      (∀ i, hostReg addr = .out i → i < Config.nOUT) := by
  unfold hostReg
  split <;> simp_all
  split
  · refine ⟨fun i h => ?_, fun i h => ?_, fun i h => ?_⟩ <;> simp_all; omega
  · split
    · refine ⟨fun i h => ?_, fun i h => ?_, fun i h => ?_⟩ <;> simp_all; omega
    · split
      · refine ⟨fun i h => ?_, fun i h => ?_, fun i h => ?_⟩ <;> simp_all; omega
      · simp

/-- The windows of the register map (10_state.md R34). -/
theorem hostReg_fl {i : Nat} (h : i < Config.nFL) : hostReg (0x010 + i) = .fl i := by
  simp only [Config.nFL] at h
  generalize ha : 0x010 + i = a
  unfold hostReg
  split <;> first | omega | skip
  rw [if_pos (by simp only [Config.nFL]; omega)]
  simp only [HostReg.fl.injEq]
  omega

theorem hostReg_fb {i : Nat} (h : i < Config.nFB) : hostReg (0x100 + i) = .fb i := by
  simp only [Config.nFB] at h
  generalize ha : 0x100 + i = a
  unfold hostReg
  split <;> first | omega | skip
  rw [if_neg (by simp only [Config.nFL]; omega), if_pos (by simp only [Config.nFB]; omega)]
  simp only [HostReg.fb.injEq]
  omega

theorem hostReg_out {i : Nat} (h : i < Config.nOUT) : hostReg (0x800 + i) = .out i := by
  simp only [Config.nOUT] at h
  generalize ha : 0x800 + i = a
  unfold hostReg
  split <;> first | omega | skip
  rw [if_neg (by simp only [Config.nFL]; omega), if_neg (by simp only [Config.nFB]; omega),
    if_pos (by simp only [Config.nOUT]; omega)]
  simp only [HostReg.out.injEq]
  omega

end Sys2Proof.Machine
end

