-- ==== Sys2Proof/Laws/Engine.lean ====
section
/-! SUPPORT. What a move of the engine and a step can do, said once. -/

namespace Sys2Proof.Machine

/-- All that a descriptor fetch can do. -/
theorem fetchDescriptor_cases (s : State) (k : Nat) :
    (Config.nFL ≤ k ∧ fetchDescriptor s k = .settled (.fault (.noSuchDescriptor k))) ∨
    (k < Config.nFL ∧ ∃ i, decodeDescriptor (s.flWord k) = .ok i ∧ fetchDescriptor s k = .instr i) ∨
    (k < Config.nFL ∧ (∃ e, decodeDescriptor (s.flWord k) = .error e) ∧
      fetchDescriptor s k = .settled (.next (s.endRefused rejDescriptor))) := by
  unfold fetchDescriptor
  split
  · rename_i h; exact .inl ⟨h, rfl⟩
  · rename_i h
    cases hd : decodeDescriptor (s.flWord k) with
    | ok i => exact .inr (.inl ⟨by omega, i, rfl, rfl⟩)
    | error e => exact .inr (.inr ⟨by omega, ⟨e, rfl⟩, rfl⟩)

theorem fetchDescriptor_ok {s : State} {k : Nat} {i : Instr} (hk : k < Config.nFL)
    (h : decodeDescriptor (s.flWord k) = .ok i) : fetchDescriptor s k = .instr i := by
  unfold fetchDescriptor
  rw [if_neg (by omega), h]

theorem engineStep_idle {s : State} (h : s.phase = .idle) : engineStep s = .next s := by
  unfold engineStep fetch; rw [h]

theorem engineStep_command {s : State} {c : Word} {i : Instr} (h : s.phase = .command c)
    (hd : decodeCommand c = .ok i) : engineStep s = exec i s := by
  unfold engineStep fetch; rw [h]; simp only [hd]

theorem engineStep_command_error {s : State} {c : Word} {e : DecodeReject} (h : s.phase = .command c)
    (hd : decodeCommand c = .error e) : engineStep s = .next (s.endRefused rejOpcode) := by
  unfold engineStep fetch; rw [h]; simp only [hd]

theorem engineStep_one {s : State} {i : Instr} (h : s.phase = .one) (hk : s.arg0.toNat < Config.nFL)
    (hd : decodeDescriptor (s.flWord s.arg0.toNat) = .ok i) : engineStep s = exec i s := by
  unfold engineStep fetch; rw [h]; simp only [fetchDescriptor_ok hk hd]

theorem engineStep_list {s : State} {fpc : Nat} {i : Instr} (h : s.phase = .list fpc)
    (hf : fpc < s.flen.toNat) (hk : fpc < Config.nFL) (hd : decodeDescriptor (s.flWord fpc) = .ok i) :
    engineStep s = exec i s := by
  unfold engineStep fetch; rw [h]; simp only [if_pos hf, fetchDescriptor_ok hk hd]

theorem engineStep_list_end {s : State} {fpc : Nat} (h : s.phase = .list fpc) (hf : s.flen.toNat ≤ fpc) :
    engineStep s = .next s.listExhausted := by
  unfold engineStep fetch; rw [h]; simp only [if_neg (show ¬ fpc < s.flen.toNat by omega)]

/-- All that a move of the engine can do, by the stage of the command. -/
theorem engineStep_cases (s : State) :
    (s.phase = .idle ∧ engineStep s = .next s) ∨
    (∃ c i, s.phase = .command c ∧ decodeCommand c = .ok i ∧ engineStep s = exec i s) ∨
    (∃ c e, s.phase = .command c ∧ decodeCommand c = .error e ∧
      engineStep s = .next (s.endRefused rejOpcode)) ∨
    (∃ k i, (s.phase = .one ∧ k = s.arg0.toNat ∨ s.phase = .list k ∧ k < s.flen.toNat) ∧ k < Config.nFL ∧
      decodeDescriptor (s.flWord k) = .ok i ∧ engineStep s = exec i s) ∨
    (∃ k, (s.phase = .one ∧ k = s.arg0.toNat ∨ s.phase = .list k ∧ k < s.flen.toNat) ∧ k < Config.nFL ∧
      (∃ e, decodeDescriptor (s.flWord k) = .error e) ∧ engineStep s = .next (s.endRefused rejDescriptor)) ∨
    (∃ k, (s.phase = .one ∧ k = s.arg0.toNat ∨ s.phase = .list k ∧ k < s.flen.toNat) ∧ Config.nFL ≤ k ∧
      engineStep s = .fault (.noSuchDescriptor k)) ∨
    (∃ fpc, s.phase = .list fpc ∧ s.flen.toNat ≤ fpc ∧ engineStep s = .next s.listExhausted) := by
  have key : ∀ k, fetch s = fetchDescriptor s k →
      (s.phase = .one ∧ k = s.arg0.toNat ∨ s.phase = .list k ∧ k < s.flen.toNat) →
      (∃ k i, (s.phase = .one ∧ k = s.arg0.toNat ∨ s.phase = .list k ∧ k < s.flen.toNat) ∧ k < Config.nFL ∧
        decodeDescriptor (s.flWord k) = .ok i ∧ engineStep s = exec i s) ∨
      (∃ k, (s.phase = .one ∧ k = s.arg0.toNat ∨ s.phase = .list k ∧ k < s.flen.toNat) ∧ k < Config.nFL ∧
        (∃ e, decodeDescriptor (s.flWord k) = .error e) ∧
        engineStep s = .next (s.endRefused rejDescriptor)) ∨
      (∃ k, (s.phase = .one ∧ k = s.arg0.toNat ∨ s.phase = .list k ∧ k < s.flen.toNat) ∧ Config.nFL ≤ k ∧
        engineStep s = .fault (.noSuchDescriptor k)) := by
    intro k hf hw
    rcases fetchDescriptor_cases s k with ⟨hk, h⟩ | ⟨hk, i, hd, h⟩ | ⟨hk, hd, h⟩
    · exact .inr (.inr ⟨k, hw, hk, by unfold engineStep; rw [hf, h]⟩)
    · exact .inl ⟨k, i, hw, hk, hd, by unfold engineStep; rw [hf, h]⟩
    · exact .inr (.inl ⟨k, hw, hk, hd, by unfold engineStep; rw [hf, h]⟩)
  cases hp : s.phase with
  | idle => exact .inl ⟨rfl, engineStep_idle hp⟩
  | command c =>
    cases hd : decodeCommand c with
    | ok i => exact .inr (.inl ⟨c, i, rfl, hd, engineStep_command hp hd⟩)
    | error e => exact .inr (.inr (.inl ⟨c, e, rfl, hd, engineStep_command_error hp hd⟩))
  | one =>
    have hf : fetch s = fetchDescriptor s s.arg0.toNat := by unfold fetch; rw [hp]
    rcases key _ hf (.inl ⟨hp, rfl⟩) with h | h | h
    · exact .inr (.inr (.inr (.inl (by simpa only [hp] using h))))
    · exact .inr (.inr (.inr (.inr (.inl (by simpa only [hp] using h)))))
    · exact .inr (.inr (.inr (.inr (.inr (.inl (by simpa only [hp] using h))))))
  | list fpc =>
    by_cases hlt : fpc < s.flen.toNat
    · have hf : fetch s = fetchDescriptor s fpc := by unfold fetch; rw [hp]; simp only [if_pos hlt]
      rcases key _ hf (.inr ⟨hp, hlt⟩) with h | h | h
      · exact .inr (.inr (.inr (.inl (by simpa only [hp] using h))))
      · exact .inr (.inr (.inr (.inr (.inl (by simpa only [hp] using h)))))
      · exact .inr (.inr (.inr (.inr (.inr (.inl (by simpa only [hp] using h))))))
    · exact .inr (.inr (.inr (.inr (.inr (.inr ⟨fpc, rfl, by omega, engineStep_list_end hp (by omega)⟩)))))

/-- All that a step can do, by the next turn of the schedule. -/
theorem step_cases (s : State) :
    (s.inputs = [] ∧ step s = engineStep s) ∨
    (∃ rest, s.inputs = .engine :: rest ∧ step s = engineStep { s with inputs := rest }) ∨
    (∃ a rest, s.inputs = .host a :: rest ∧
      step s = .next (({ s with inputs := rest } : State).hostAccess a)) ∨
    (∃ rest, s.inputs = .reset :: rest ∧ step s = .next ({ s with inputs := rest } : State).hostReset) := by
  unfold step
  cases hi : s.inputs with
  | nil => exact .inl ⟨rfl, rfl⟩
  | cons t rest =>
    cases t with
    | engine => exact .inr (.inl ⟨rest, rfl, rfl⟩)
    | host a => exact .inr (.inr (.inl ⟨a, rest, rfl, rfl⟩))
    | reset => exact .inr (.inr (.inr ⟨rest, rfl, rfl⟩))

/-- The meaning of a descriptor is an attempt of its word with its decoder's result. -/
theorem exec_descriptor {i : Instr} (s : State) (h : i.isCommand = false) :
    ∃ r, decodeFormat i s.stream = some r ∧ exec i s = attempt (encode i) r s := by
  cases i <;> first | exact absurd h (by decide) | exact ⟨_, rfl, rfl⟩

end Sys2Proof.Machine
end

