-- ==== Sys2Proof/Laws/PerInstr.lean ====
section
/-! SUPPORT. A statement about every instruction as syntax, one lemma per constructor. -/

namespace Sys2Proof.Laws.WordIsLegal

/-- The word of an instruction keeps the zero bits of its own space: a command's bits 31:8 (30_encoding.md R90), and
everything that makes a descriptor's word a legal one (R104). -/
def Statement (i : Instr) : Prop :=
  (i.isCommand = true → (encode i).toNat < 256) ∧ (i.isCommand = false → legalDescriptor (encode i) = true)

theorem nop : Statement .nop := by unfold Statement; decide
theorem bsNew : Statement .bsNew := by unfold Statement; decide
theorem extractLsb : Statement .extractLsb := by unfold Statement; decide
theorem extractMsb : Statement .extractMsb := by unfold Statement; decide
theorem invert : Statement .invert := by unfold Statement; decide
theorem checkParity : Statement .checkParity := by unfold Statement; decide
theorem lrcClr : Statement .lrcClr := by unfold Statement; decide
theorem lrcPush : Statement .lrcPush := by unfold Statement; decide
theorem lrcFinT2 : Statement .lrcFinT2 := by unfold Statement; decide
theorem lrcFinT1 : Statement .lrcFinT1 := by unfold Statement; decide
theorem decodeOne : Statement .decodeOne := by unfold Statement; decide
theorem decodeList : Statement .decodeList := by unfold Statement; decide
theorem track1 : Statement .track1 := by unfold Statement; decide
theorem track1Inv : Statement .track1Inv := by unfold Statement; decide
theorem track2 : Statement .track2 := by unfold Statement; decide
theorem track2Inv : Statement .track2Inv := by unfold Statement; decide
theorem track2Msb : Statement .track2Msb := by unfold Statement; decide
theorem track2Lsb : Statement .track2Lsb := by unfold Statement; decide
theorem track2Raw : Statement .track2Raw := by unfold Statement; decide
theorem track2Swp : Statement .track2Swp := by unfold Statement; decide
theorem track2Even : Statement .track2Even := by unfold Statement; decide
theorem track3 : Statement .track3 := by unfold Statement; decide

/-- TAG, the zero bits 15:14 and PAR of a Custom's word. -/
theorem encode_custom_fields (f : FormatSpec) :
    f.encode.extractLsb' 0 4 = 10#4 ∧ f.encode.extractLsb' 14 2 = 0#2 ∧ f.encode.extractLsb' 9 2 = f.parity.code := by
  unfold FormatSpec.encode fieldAt
  refine ⟨?_, ?_, ?_⟩ <;> apply BitVec.eq_of_getLsbD_eq <;> intro i hi <;> interval_cases i <;> simp

theorem parityOfCode_code (p : ParityMode) : parityOfCode p.code = some p := by cases p <;> rfl

theorem custom (f : FormatSpec) : Statement (.custom f) := by
  refine ⟨fun h => absurd h (by simp [Instr.isCommand]), fun _ => ?_⟩
  obtain ⟨htag, hzero, hpar⟩ := encode_custom_fields f
  have hd : decodeDescriptor (encode (.custom f)) = .ok (.custom (formatSpecOf f.encode f.parity)) := by
    unfold decodeDescriptor decodeCustomWord encode
    rw [htag, hzero, hpar, parityOfCode_code]
    rfl
  unfold legalDescriptor
  rw [hd]

end Sys2Proof.Laws.WordIsLegal
end

