-- ==== Sys2Proof/Tests/Slice0.lean ====
section
/-! SUPPORT. The model's own tests. Expected results are those of 95_test_vectors.md (each docstring names its vector), words
are written out from the layouts of 30_encoding.md, and `test_witness_<Name>` shows a state and operands that meet the
hypotheses of `Obligations.<Name>`, at the boundaries of its clauses. -/

-- One test after the other: a thread for each of so many small tests costs more memory than it saves time.
set_option Elab.async false

namespace Sys2Proof.Tests

open Sys2Proof.Machine

/-! ### Helpers -/

/-- What a view of the next state shows; nothing when the machine stopped. -/
def seen {α : Type} (o : Host.Outcome State Fault Refusal) (view : State → α) : Option α :=
  match o with
  | .next t => some (view t)
  | .fault _ => none
  | .refused _ => none

/-- The reset state with the bytes in FB and a stream of `n` bits over them. -/
def streamOf (bytes : List Byte) (n : Nat) : State :=
  { State.reset with
    fb := bytes.zipIdx.map fun p => (p.2, p.1)
    sbits := BitVec.ofNat 32 n
    slen := BitVec.ofNat 32 ((n + 7) / 8) }

/-- A state with the two operands set. -/
def withArgs (s : State) (a b : Word) : State := { s with arg0 := a, arg1 := b }

/-- A state whose list is these descriptors, all within FLEN. -/
def withList (s : State) (ds : List Word) : State :=
  { s with fl := ds.zipIdx.map fun p => (p.2, p.1), flen := BitVec.ofNat 32 ds.length }

/-- DECODE_ONE's attempt comes next. -/
def inOne (s : State) : State := s.setPhase .one

/-- The record of the last command. -/
def record (t : State) : Word × Word × Word × Word × Word :=
  (t.status, t.res, t.errKind, t.errInfo0, t.errInfo1)

/-- What a decode command reports: OK, the string, the error. -/
def report (t : State) : Bool × List Byte × Word × Word × Word :=
  (t.ok, t.out, t.errKind, t.errInfo0, t.errInfo1)

/-- The stream of E-1. -/
def e1 : State := streamOf [0xA5, 0x3C] 16

/-- The stream of T2-1. -/
def t21 : State := streamOf [0xD4, 0x11, 0xF1, 0x80] 25

/-- The stream of T1-1. -/
def t11 : State := streamOf [0xA3, 0x0D, 0x1F, 0xC9, 0x80] 35

/-- The stream of T1-2. -/
def t12 : State := streamOf [0x5C, 0xF2, 0xE0, 0x36, 0x60] 35

/-! ### Well-formedness: each check refuses an ill-formed term -/

/-- R99: "a width above 15 cannot be written at all". -/
theorem test_wellFormed_refuses_width_16 :
    FormatSpec.wellFormed ⟨16, true, .odd, false, true, true, 0x0B, 0x1F⟩ = false := by decide

theorem test_wellFormed_refuses_custom_width_16 :
    Instr.wellFormed (.custom ⟨16, true, .odd, false, true, true, 0x0B, 0x1F⟩) = false := by decide

theorem test_wellFormed_keeps_width_15 :
    Instr.wellFormed (.custom ⟨15, true, .odd, false, true, true, 0x0B, 0x1F⟩) = true := by decide

/-! ### Decoding: words written from the layouts of 30_encoding.md R90, R91, R98, R100 -/

/-- CMD[7:0] is OPC, CMD[31:8] is zero. -/
theorem test_decode_commands :
    decodeCommand 0b00000000000000000000000000000000 = .ok .nop ∧
    decodeCommand 0b00000000000000000000000000000001 = .ok .bsNew ∧
    decodeCommand 0b00000000000000000000000000010000 = .ok .extractLsb ∧
    decodeCommand 0b00000000000000000000000000010001 = .ok .extractMsb ∧
    decodeCommand 0b00000000000000000000000000010010 = .ok .invert ∧
    decodeCommand 0b00000000000000000000000000010011 = .ok .checkParity ∧
    decodeCommand 0b00000000000000000000000000011000 = .ok .lrcClr ∧
    decodeCommand 0b00000000000000000000000000011001 = .ok .lrcPush ∧
    decodeCommand 0b00000000000000000000000000011010 = .ok .lrcFinT2 ∧
    decodeCommand 0b00000000000000000000000000011011 = .ok .lrcFinT1 ∧
    decodeCommand 0b00000000000000000000000000100000 = .ok .decodeOne ∧
    decodeCommand 0b00000000000000000000000000100001 = .ok .decodeList := by decide

/-- d[3:0] is TAG, d[31:4] is zero. -/
theorem test_decode_profiles :
    decodeDescriptor 0b00000000000000000000000000000000 = .ok .track1 ∧
    decodeDescriptor 0b00000000000000000000000000000001 = .ok .track1Inv ∧
    decodeDescriptor 0b00000000000000000000000000000010 = .ok .track2 ∧
    decodeDescriptor 0b00000000000000000000000000000011 = .ok .track2Inv ∧
    decodeDescriptor 0b00000000000000000000000000000100 = .ok .track2Msb ∧
    decodeDescriptor 0b00000000000000000000000000000101 = .ok .track2Lsb ∧
    decodeDescriptor 0b00000000000000000000000000000110 = .ok .track2Raw ∧
    decodeDescriptor 0b00000000000000000000000000000111 = .ok .track2Swp ∧
    decodeDescriptor 0b00000000000000000000000000001000 = .ok .track2Even ∧
    decodeDescriptor 0b00000000000000000000000000001001 = .ok .track3 := by decide

/-- ES, SS, zero, ESV, SSV, INV, PAR, LSBF, BPC, TAG: `w=5, ss=0x0B, es=0x1F, lsb, par=odd` and one with only SSV and INV. -/
theorem test_decode_custom :
    decodeDescriptor 0b00011111000010110011001101011010 =
      .ok (.custom ⟨5, true, .odd, false, true, true, 0x0B, 0x1F⟩) ∧
    decodeDescriptor 0b00000000010001010001110001111010 =
      .ok (.custom ⟨7, false, .even, true, true, false, 0x45, 0x00⟩) := by decide

/-- O-11 and O-12. -/
theorem test_decode_rejects :
    decodeDescriptor 0x0000000F = .error .unknownTag ∧
    decodeDescriptor 0x00000012 = .error .reservedDescriptorBits ∧
    decodeDescriptor 0x80000000 = .error .reservedDescriptorBits ∧
    decodeDescriptor 0x0000065A = .error .illegalParity ∧
    decodeDescriptor 0x0000805A = .error .reservedDescriptorBits ∧
    decodeCommand 0x14 = .error .unknownOpcode ∧ decodeCommand 0xFF = .error .unknownOpcode ∧
    decodeCommand 0x100 = .error .reservedCommandBits := by decide

/-- A word that only a descriptor has, one that only a command has, and one that is both (log 1). -/
theorem test_decodeTableWord :
    decodeTableWord 32 0x00000002 = some .track2 ∧ decodeTableWord 32 0x00000021 = some .decodeList ∧
    decodeTableWord 32 0x00000000 = some .nop ∧ decodeTableWord 32 0x0000000B = none := by decide

/-- A placed descriptor is the next step's attempt: on the empty stream TRACK2 fails with BitstreamTooShort(0, 15). -/
theorem test_withFetchWord_descriptor :
    seen (step (State.reset.withFetchWord 32 2)) report = some (false, [], 3, 0, 15) := by decide +kernel

/-- A placed command is the next step's command. -/
theorem test_withFetchWord_command :
    seen (step (State.reset.withFetchWord 32 0x1B)) record = some (0x16, 0x40, 0, 0, 0) := by decide +kernel

/-! ### Commands -/

/-- O-13, after an error. -/
theorem test_nop_clears_record :
    seen (exec .nop (e1.endError .outOfRange)) record = some (0x06, 0, 0, 0, 0) := by decide +kernel

/-- Section 3, `BS_NEW 256, 130`. -/
theorem test_bsNew_shrinks :
    seen (exec .bsNew (withArgs e1 256 130)) (fun t => (t.sbits, t.slen, t.status)) = some (130, 17, 0x06) := by
  decide +kernel

/-- Section 3, `BS_NEW 4, 0xFFFFFFFF`. -/
theorem test_bsNew_length_mismatch :
    seen (exec .bsNew (withArgs e1 4 0xFFFFFFFF)) (fun t => (record t, t.sbits, t.slen)) =
      some ((0x12, 0, 16, 0x20000000, 4), 0, 0) := by decide +kernel

/-- E-1, `4, 8`. -/
theorem test_extractLsb_across_bytes :
    seen (exec .extractLsb (withArgs e1 4 8)) (·.res) = some 202 := by decide +kernel

/-- E-1, `0xFFFFFFFF, 8`. -/
theorem test_extractLsb_no_wrap :
    seen (exec .extractLsb (withArgs e1 0xFFFFFFFF 8)) record = some (0x02, 0, 17, 0, 0) := by decide +kernel

/-- E-1, `9, 7`. -/
theorem test_extractMsb_across_bytes :
    seen (exec .extractMsb (withArgs e1 9 7)) (·.res) = some 60 := by decide +kernel

/-- E-1, `0, 9`. -/
theorem test_extractMsb_refuses_width_9 :
    seen (exec .extractMsb (withArgs e1 0 9)) record = some (0x20A, 0, 0, 0, 0) := by decide +kernel

/-- E-2. -/
theorem test_invert : seen (exec .invert (withArgs e1 0x0B 0)) (·.res) = some 0xF4 := by decide +kernel

/-- E-2. -/
theorem test_invert_refuses_9_bits :
    seen (exec .invert (withArgs e1 0x100 0)) record = some (0x20A, 0, 0, 0, 0) := by decide +kernel

/-- E-3, bits above the width ignored. -/
theorem test_checkParity_masks :
    seen (exec .checkParity (withArgs e1 0xE0 0x25)) (·.res) = some 1 := by decide +kernel

/-- E-3, mode 3. -/
theorem test_checkParity_refuses_mode_3 :
    seen (exec .checkParity (withArgs e1 0x0B 0x35)) record = some (0x20A, 0, 0, 0, 0) := by decide +kernel

/-- E-4. -/
theorem test_lrcClr : seen (exec .lrcClr (e1.setLrcAcc 0xEB)) (·.lrcAcc) = some 0 := by decide +kernel

/-- E-4, the second push of `0x0B, 0x10`. -/
theorem test_lrcPush :
    seen (exec .lrcPush (withArgs (e1.setLrcAcc 0x0B) 0x10 0)) (·.lrcAcc) = some 0x1B := by decide +kernel

/-- E-4. -/
theorem test_lrcPush_refuses_9_bits :
    seen (exec .lrcPush (withArgs (e1.setLrcAcc 0x0B) 0x1FF 0)) (fun t => (t.lrcAcc, t.rejCode)) = some (0x0B, 2) := by
  decide +kernel

/-- E-4, `0xEB`: bits 7:5 masked. -/
theorem test_lrcFinT2 :
    seen (exec .lrcFinT2 (e1.setLrcAcc 0xEB)) (fun t => (t.res, t.lrcAcc)) = some (0x1B, 0xEB) := by decide +kernel

/-- E-4, `0xEB`. -/
theorem test_lrcFinT1 :
    seen (exec .lrcFinT1 (e1.setLrcAcc 0xEB)) (fun t => (t.res, t.lrcAcc)) = some (0x6B, 0xEB) := by decide +kernel

/-- O-7, `DECODE_ONE 1` on an illegal word. -/
theorem test_decodeOne_refuses_illegal_descriptor :
    seen (exec .decodeOne (withArgs (withList t21 [2, 0x0000000B]) 1 0)) (·.status) = some 0x30A := by decide +kernel

/-- O-10. -/
theorem test_decodeOne_refuses_index :
    seen (exec .decodeOne (withArgs (withList t21 [2]) 1 0)) (·.status) = some 0x20A := by decide +kernel

/-- O-1. -/
theorem test_decodeList_empty :
    seen (exec .decodeList t21) (fun t => (record t, t.matchIdx, t.matchFmt, t.outLen)) =
      some ((0x02, 0, 1, 0, 0), 0xFFFFFFFF, 0, 0) := by decide +kernel

/-- O-7, `DECODE_LIST`: refused although index 0 would succeed. -/
theorem test_decodeList_checks_first :
    seen (exec .decodeList (withList t21 [2, 0x0000000B])) (·.status) = some 0x30A := by decide +kernel

/-! ### Descriptors, each as the attempt of DECODE_ONE -/

/-- T1-5. -/
theorem test_track1_skips_filler :
    seen (exec .track1 (inOne (streamOf [0x02, 0x06, 0x8C, 0x3F, 0x9B, 0x80] 42))) report =
      some (true, [0x41], 0, 0, 0) := by decide +kernel

/-- T1-6. -/
theorem test_track1_checksum :
    seen (exec .track1 (inOne (streamOf [0xA3, 0x0D, 0x1F, 0xC1, 0x80] 35))) report =
      some (false, [], 7, 0, 0) := by decide +kernel

/-- T1-2. -/
theorem test_track1Inv : seen (exec .track1Inv (inOne t12)) report = some (true, [0x41, 0x42], 0, 0, 0) := by
  decide +kernel

/-- T1-4. -/
theorem test_track1Inv_parity :
    seen (exec .track1Inv (inOne (streamOf [0x01, 0x46, 0x1F, 0xCD, 0xC0] 35))) report =
      some (false, [], 4, 1, 0) := by decide +kernel

/-- T2-2a. -/
theorem test_track2_slips_three_bits :
    seen (exec .track2 (inOne (streamOf [0x1A, 0x82, 0x3E, 0x30] 28))) report =
      some (true, [0x31, 0x32], 0, 0, 0) := by decide +kernel

/-- T2-13: the last offset tried. -/
theorem test_track2_last_offset :
    seen (exec .track2 (inOne (streamOf [0x00, 0x34] 15))) report = some (false, [], 6, 0, 0) := by decide +kernel

/-- S-1, the source's scenario: "0004048712". -/
theorem test_track2Inv_scenario :
    seen (exec .track2Inv (inOne (streamOf [0xFF, 0xFF, 0xFF, 0x97, 0xDE, 0xF6, 0xFD, 0xBE, 0x8D, 0xF7, 0x07, 0x7F,
      0xFF, 0xFF, 0xFF, 0xFF, 0xC0] 130))) report =
      some (true, [0x30, 0x30, 0x30, 0x34, 0x30, 0x34, 0x38, 0x37, 0x31, 0x32], 0, 0, 0) := by decide +kernel

/-- T2-4. -/
theorem test_track2Inv_checksum_complement :
    seen (exec .track2Inv (inOne (streamOf [0xE5, 0x7D, 0xC0, 0x30] 28))) report =
      some (true, [0x31, 0x32], 0, 0, 0) := by decide +kernel

/-- T2-3. -/
theorem test_track2Msb :
    seen (exec .track2Msb (inOne (streamOf [0x0B, 0x08, 0xBF, 0x80] 28))) report =
      some (true, [0x31, 0x32], 0, 0, 0) := by decide +kernel

/-- T2-10. -/
theorem test_track2Msb_short :
    seen (exec .track2Msb (inOne (streamOf [0xD7, 0xF6] 15))) report = some (false, [], 3, 15, 17) := by
  decide +kernel

/-- T2-2c. -/
theorem test_track2Lsb :
    seen (exec .track2Lsb (inOne (streamOf [0x01, 0xA8, 0x23, 0xE3] 32))) report =
      some (true, [0x31, 0x32], 0, 0, 0) := by decide +kernel

/-- T2-9. -/
theorem test_track2Raw :
    seen (exec .track2Raw (inOne (streamOf [0xD4, 0x11, 0xFB] 24))) report =
      some (true, [0x3B, 0x31, 0x32, 0x3F], 0, 0, 0) := by decide +kernel

/-- T2-12b. -/
theorem test_track2Raw_parity :
    seen (exec .track2Raw (inOne (streamOf [0xD0, 0x3E] 15))) report = some (false, [], 4, 1, 0) := by decide +kernel

/-- T2-1. -/
theorem test_track2Swp : seen (exec .track2Swp (inOne t21)) report = some (true, [0x31, 0x32], 0, 0, 0) := by
  decide +kernel

/-- T2-14. -/
theorem test_track2Even : seen (exec .track2Even (inOne t21)) report = some (false, [], 4, 0, 0) := by decide +kernel

/-- O-2: the third attempt of the list. -/
theorem test_track3_in_list :
    seen (exec .track3 ((withList t21 [0, 3, 9, 2]).setPhase (.list 2)))
      (fun t => (t.status, t.matchIdx, t.matchFmt, t.outLen)) = some (0x06, 2, 9, 2) := by decide +kernel

/-- C-10: sentinels compared after inversion. -/
theorem test_custom_inverted :
    seen (exec (.custom ⟨5, true, .odd, true, true, true, 0x0B, 0x1F⟩) (inOne (streamOf [0x2B, 0xEE, 0x00] 20)))
      (fun t => (report t, t.matchFmt)) = some ((true, [0x31, 0x32], 0, 0, 0), 0x1F0B3B5A) := by decide +kernel

/-- C-2b, in DECODE_ONE. -/
theorem test_custom_invalid_character :
    seen (exec (.custom ⟨4, false, .none, false, false, false, 0, 0⟩) (inOne (streamOf [0x12, 0xA0] 12))) report =
      some (false, [], 8, 2, 10) := by decide +kernel

/-! ### Witnesses: the hypotheses of every statement that has some are met, at the boundaries of its clauses -/

theorem test_witness_EncodeThenDecode :
    (Instr.wellFormed .decodeList = true ∧ Instr.isCommand .decodeList = true) ∧
    (Instr.wellFormed (.custom ⟨15, true, .even, true, true, true, 0xFF, 0xFF⟩) = true ∧
      Instr.isCommand (.custom ⟨15, true, .even, true, true, true, 0xFF, 0xFF⟩) = false) := by decide

theorem test_witness_DecodeThenEncode :
    decodeCommand 0x21 = .ok .decodeList ∧
    decodeDescriptor 0xFFFF3DFA = .ok (.custom ⟨15, true, .even, true, true, true, 0xFF, 0xFF⟩) := by decide

theorem test_witness_IllegalCommandWordRefused :
    (e1.setPhase (.command 0x22)).phase = .command 0x22 ∧
    (0x22 : Word).toNat ∉ [0x00, 0x01, 0x10, 0x11, 0x12, 0x13, 0x18, 0x19, 0x1A, 0x1B, 0x20, 0x21] ∧
    (0x80000021 : Word).toNat ∉ [0x00, 0x01, 0x10, 0x11, 0x12, 0x13, 0x18, 0x19, 0x1A, 0x1B, 0x20, 0x21] := by decide

/-- A state with a list of 16 descriptors, the last one TRACK3, and the turn of the engine on the schedule. -/
def fullList : State :=
  { withList t21 [0, 1, 2, 3, 4, 5, 6, 7, 8, 9, 0, 1, 2, 3, 4, 9] with arg0 := 15, inputs := [.engine, .reset] }

theorem test_witness_StepRunsFetchedInstruction :
    ((e1.setPhase (.command 0x21)).inputs = [] ∧ decodeCommand 0x21 = .ok .decodeList) ∧
    fullList.inputs = .engine :: [.reset] ∧
    ((inOne fullList).phase = .one ∧ (inOne fullList).arg0.toNat < Config.nFL ∧
      decodeDescriptor ((inOne fullList).flWord (inOne fullList).arg0.toNat) = .ok .track3) ∧
    ((fullList.setPhase (.list 15)).phase = .list 15 ∧ 15 < (fullList.setPhase (.list 15)).flen.toNat ∧
      15 < Config.nFL ∧ decodeDescriptor ((fullList.setPhase (.list 15)).flWord 15) = .ok .track3) := by decide

theorem test_witness_TurnsOfTheSchedule :
    ({ e1 with inputs := [.host (.read 4)] } : State).inputs = .host (.read 4) :: [] ∧
    ({ e1 with inputs := [.reset, .engine] } : State).inputs = .reset :: [.engine] ∧ e1.phase = .idle := by decide

theorem test_witness_CmdWriteRunsPrologue : e1.busy = false ∧ (e1.endError .outOfRange).busy = false := by decide

theorem test_witness_StatusWordFields : (5 ≤ 5 ∧ 5 < 8) ∧ (5 ≤ 7 ∧ 7 < 8) ∧ 16 ≤ 16 ∧ 16 ≤ 31 := by decide

/-- A state in the middle of DECODE_LIST, its record cleared. -/
def midList : State := fullList.prologue.setPhase (.list 1)

theorem test_witness_HostAccessWhileBusy :
    midList.busy = true ∧ hostReg 0 ≠ .unmapped ∧ hostReg 0xFFF ≠ .unmapped ∧ hostReg 0x00F = .unmapped ∧
    hostReg 0x1000 = .unmapped ∧
    ({ midList with inputs := [.host (.write 2 5)] } : State).inputs = .host (.write 2 5) :: [] ∧
    ({ midList with inputs := [.host (.read 1)] } : State).inputs = .host (.read 1) :: [] := by decide

theorem test_witness_HostAccessWhileBusy_record : midList.recordWf := by
  unfold State.recordWf; decide

theorem test_witness_FrameBufferWriteEmptiesStream : e1.busy = false ∧ 0 < Config.nFB ∧ 255 < Config.nFB := by decide

theorem test_witness_FormatListWriteStores : e1.busy = false ∧ 0 < Config.nFL ∧ 15 < Config.nFL := by decide

theorem test_witness_RegisterMap : e1.busy = false ∧ t21.busy = false := by decide

theorem test_witness_ResetTurnGivesResetState :
    ({ midList with inputs := [.reset] } : State).inputs = .reset :: [] := by decide

theorem test_witness_MemReadBits :
    memRead e1.stream 12 4 = some [true, true, false, false] ∧ memRead e1.stream 16 0 = some [] ∧
    12 + 5 > e1.stream.bitCount := by decide

theorem test_witness_WindowAssembly :
    exLsb e1.stream 11 5 = some 7 ∧ exMsb e1.stream 11 5 = some 28 ∧ exLsb e1.stream 0 0 = some 0 ∧
    exMsb e1.stream 8 8 = some 60 ∧ 8 % 8 = 0 ∧ 8 + 8 ≤ e1.stream.bitCount := by decide

/-- The decoders' windows at the last offset where each lies in the stream: 7 bits, 5 bits, and widths 1 and 8. -/
theorem test_witness_WindowAssembly_decoders :
    28 + 7 ≤ t12.stream.bitCount ∧ 20 + 5 ≤ t21.stream.bitCount ∧
    ({ msb := true } : T2Params).msb = true ∧ ({ msb := true } : T2Params).inv = false ∧
    1 ≤ 1 ∧ 1 ≤ 8 ∧ 15 + 1 ≤ e1.stream.bitCount ∧ 1 ≤ 8 ∧ 8 ≤ 8 ∧ 8 + 8 ≤ e1.stream.bitCount := by decide

theorem test_witness_ExtractLsbResult :
    (withArgs e1 0 9).arg1.toNat > 8 ∧
    ((withArgs e1 9 8).arg1.toNat ≤ 8 ∧
      (withArgs e1 9 8).arg0.toNat + (withArgs e1 9 8).arg1.toNat > (withArgs e1 9 8).sbits.toNat) ∧
    ((withArgs e1 8 8).arg1.toNat ≤ 8 ∧
      (withArgs e1 8 8).arg0.toNat + (withArgs e1 8 8).arg1.toNat ≤ (withArgs e1 8 8).sbits.toNat) := by decide

theorem test_witness_ExtractMsbResult :
    (withArgs e1 0 9).arg1.toNat > 8 ∧
    ((withArgs e1 17 0).arg1.toNat ≤ 8 ∧
      (withArgs e1 17 0).arg0.toNat + (withArgs e1 17 0).arg1.toNat > (withArgs e1 17 0).sbits.toNat) ∧
    ((withArgs e1 16 0).arg1.toNat ≤ 8 ∧
      (withArgs e1 16 0).arg0.toNat + (withArgs e1 16 0).arg1.toNat ≤ (withArgs e1 16 0).sbits.toNat) := by decide

theorem test_witness_InvertResult :
    (withArgs e1 255 0).arg0.toNat < 256 ∧ 256 ≤ (withArgs e1 256 0).arg0.toNat := by decide

/-- The refusing clause by each of its three grounds, and each mode at widths 8 and 0. -/
theorem test_witness_CheckParityResult :
    (withArgs e1 256 0x18).arg0.toNat ≥ 256 ∧ (withArgs e1 0 0x19).arg1.toNat % 16 > 8 ∧
    (withArgs e1 0 0x30).arg1.toNat / 16 > 2 ∧ (withArgs e1 255 0x18).arg0.toNat < 256 ∧
    ((withArgs e1 255 0x08).arg1.toNat % 16 ≤ 8 ∧ (withArgs e1 255 0x08).arg1.toNat / 16 = 0) ∧
    ((withArgs e1 255 0x18).arg1.toNat % 16 ≤ 8 ∧ (withArgs e1 255 0x18).arg1.toNat / 16 = 1) ∧
    ((withArgs e1 255 0x20).arg1.toNat % 16 ≤ 8 ∧ (withArgs e1 255 0x20).arg1.toNat / 16 = 2) := by decide

theorem test_witness_LrcAccumulates :
    (withArgs e1 255 0).arg0.toNat < 256 ∧ 256 ≤ (withArgs e1 256 0).arg0.toNat := by decide

/-- E-4, `0x0B, 0x10`. -/
theorem test_witness_LrcFinishesComputeChecksums :
    seen (pushChars [0x0B, 0x10] { e1.endOk 0 with lrcAcc := 0 }) (·.lrcAcc) = some 0x1B := by decide +kernel

theorem test_witness_BsNewResult :
    (withArgs e1 257 0).arg0.toNat > Config.nFB ∧
    ((withArgs e1 256 2049).arg0.toNat ≤ Config.nFB ∧
      ((withArgs e1 256 2049).arg1.toNat + 7) / 8 > (withArgs e1 256 2049).arg0.toNat) ∧
    ((withArgs e1 256 2048).arg0.toNat ≤ Config.nFB ∧
      ((withArgs e1 256 2048).arg1.toNat + 7) / 8 ≤ (withArgs e1 256 2048).arg0.toNat) := by decide

/-- R132's example, `[0xA5, 0x38] / 13`: its last bit, and the one place of a delimiter. -/
theorem test_witness_RenderingShowsTheBits :
    12 < (streamOf [0xA5, 0x38] 13).stream.bitCount ∧ 1 ≤ 1 ∧ 8 * 1 < (streamOf [0xA5, 0x38] 13).stream.bitCount := by
  decide

theorem test_witness_MinimumLengths :
    (streamOf [0xA3, 0x0D, 0x1F] 20).stream.bitCount < 21 ∧
    (streamOf [0xD4, 0x10] 14).stream.bitCount < 15 ∧ ({} : T2Params).raw = false := by decide

/-- T1-5 and T1-2: filler `0x40, 0x40` and `A`; no filler, inverted, `AB`. -/
theorem test_witness_Track1RoundTrip :
    ((∀ c ∈ [(0x40 : Byte), 0x40], parityOk c 7 .odd = true ∧ c &&& 0x3F ≠ 0x05) ∧
      parityOk 0x45 7 .odd = true ∧ (0x45 : Byte) &&& 0x3F = 0x05 ∧ [(0x61 : Byte)] ≠ [] ∧
      (∀ c ∈ [(0x61 : Byte)], parityOk c 7 .odd = true ∧ c &&& 0x3F ≠ 0x1F) ∧
      parityOk 0x1F 7 .odd = true ∧ (0x1F : Byte) &&& 0x3F = 0x1F ∧
      let frame : List Byte := [0x40, 0x40] ++ [0x45] ++ [0x61] ++ [0x1F] ++ [lrcT1 ([0x45] ++ [0x61] ++ [0x1F])]
      7 * frame.length ≤ (streamOf [0x02, 0x06, 0x8C, 0x3F, 0x9B, 0x80] 42).stream.bitCount ∧
      ∀ k (h : k < frame.length),
        t1Window false (streamOf [0x02, 0x06, 0x8C, 0x3F, 0x9B, 0x80] 42).stream (7 * k) = frame[k]) ∧
    (
      let frame : List Byte := [] ++ [0x45] ++ [0x61, 0x62] ++ [0x1F] ++ [lrcT1 ([0x45] ++ [0x61, 0x62] ++ [0x1F])]
      7 * frame.length ≤ t12.stream.bitCount ∧
      ∀ k (h : k < frame.length), t1Window true t12.stream (7 * k) = frame[k]) := by decide +kernel

/-- T2-2a at its lock, T2-1b under `INCL_ES`, T2-4 under inversion, T2-3 under MSB-first order. -/
theorem test_witness_Track2RoundTrip :
    ([(0x01 : Byte), 0x02] ≠ [] ∧ ∀ c ∈ [(0x01 : Byte), 0x02], parityOk c 5 .odd = true ∧ c ≠ 0x1F) ∧
    (
      let frame : List Byte := 0x0B :: [0x01, 0x02] ++ [0x1F, lrcT2 (0x0B :: [0x01, 0x02])]
      let st := (streamOf [0x1A, 0x82, 0x3E, 0x30] 28).stream
      3 + 5 * frame.length ≤ st.bitCount ∧ (∀ o, o < 3 → canon {} st o ≠ 0x0B) ∧
      ∀ k (h : k < frame.length), canon {} st (3 + 5 * k) = frame[k]) ∧
    (
      let frame : List Byte := 0x0B :: [0x01, 0x02] ++ [0x1F, lrcT2 (0x0B :: [0x01, 0x02] ++ [0x1F])]
      let st := (streamOf [0xD4, 0x11, 0xFE, 0x80] 25).stream
      0 + 5 * frame.length ≤ st.bitCount ∧
      ∀ k (h : k < frame.length), canon {} st (0 + 5 * k) = frame[k]) ∧
    (
      let frame : List Byte := 0x0B :: [0x01, 0x02] ++ [0x1F, lrcT2 (0x0B :: [0x01, 0x02]) ^^^ 0x1F]
      let st := (streamOf [0xE5, 0x7D, 0xC0, 0x30] 28).stream
      3 + 5 * frame.length ≤ st.bitCount ∧ (∀ o, o < 3 → canon { inv := true } st o ≠ 0x0B) ∧
      ∀ k (h : k < frame.length), canon { inv := true } st (3 + 5 * k) = frame[k]) ∧
    (
      let frame : List Byte := 0x0B :: [0x01, 0x02] ++ [0x1F, lrcT2 (0x0B :: [0x01, 0x02])]
      let st := (streamOf [0x0B, 0x08, 0xBF, 0x80] 28).stream
      3 + 5 * frame.length ≤ st.bitCount ∧ (∀ o, o < 3 → canon { msb := true } st o ≠ 0x0B) ∧
      ∀ k (h : k < frame.length), canon { msb := true } st (3 + 5 * k) = frame[k]) := by decide +kernel

/-- S-2, with the shortest length the statement admits beside it. -/
theorem test_witness_UniformStreamNeverLocks :
    ({} : T2Params).raw = false ∧ 15 ≤ (streamOf [0xFF, 0xFF] 15).stream.bitCount ∧
    (∀ i, i < (streamOf [0xFF, 0xFF] 15).stream.bitCount → (streamOf [0xFF, 0xFF] 15).stream.bit i = true) ∧
    (∀ i, i < (streamOf [0, 0, 0, 0, 0, 0] 48).stream.bitCount →
      (streamOf [0, 0, 0, 0, 0, 0] 48).stream.bit i = false) := by decide +kernel

theorem test_witness_Track2RawResult : ({ raw := true } : T2Params).raw = true := by decide

/-- T1-1 and T1-2: each is the other's complement on its five windows. -/
theorem test_witness_Track1InvDecodesComplement :
    t11.stream.bitCount = t12.stream.bitCount ∧
    ∀ i, i < 7 * (t12.stream.bitCount / 7) → t11.stream.bit i = !t12.stream.bit i := by decide +kernel

/-- The frame of `CustomRoundTrip`. -/
def customFrame (f : FormatSpec) (filler data : List Byte) : List Byte :=
  (if f.startValid then filler ++ [f.startSentinel] else []) ++ data ++ (if f.endValid then [f.endSentinel] else [])

/-- The hypotheses of `CustomRoundTrip`. -/
abbrev meetsCustomRoundTrip (f : FormatSpec) (st : Stream) (filler data str : List Byte) : Prop :=
  1 ≤ f.bitsPerChar ∧ f.bitsPerChar ≤ 8 ∧ (∀ v ∈ filler, v ≠ f.startSentinel) ∧
    (f.endValid = true → ∀ v ∈ data, v ≠ f.endSentinel) ∧
    data.mapM (customChar f.bitsPerChar) = some str ∧ str ≠ [] ∧
    (∀ v ∈ customFrame f filler data, parityOk v f.bitsPerChar f.parity = true) ∧
    f.bitsPerChar * (customFrame f filler data).length ≤ st.bitCount ∧
    (f.endValid = false → (customFrame f filler data).length = st.bitCount / f.bitsPerChar) ∧
    ∀ k (h : k < (customFrame f filler data).length),
      customWindow f st (f.bitsPerChar * k) = (customFrame f filler data)[k]

/-- C-9: one filler window and both sentinels. C-3es: width 8, an end sentinel only. C-5b: a start sentinel only, the data
through the last of the five whole windows. C-3c: no sentinel, five bits left over. -/
theorem test_witness_CustomRoundTrip :
    meetsCustomRoundTrip ⟨5, true, .odd, false, true, true, 0x0B, 0x1F⟩ (streamOf [0xFE, 0xA1, 0xF0] 20).stream
      [0x1F] [0x01] [0x31] ∧
    meetsCustomRoundTrip ⟨8, false, .none, false, false, true, 0x00, 0xFF⟩ (streamOf [0x48, 0x69, 0xFF] 24).stream []
      [0x48, 0x69] [0x48, 0x69] ∧
    meetsCustomRoundTrip ⟨7, true, .odd, false, true, false, 0x45, 0x00⟩ t11.stream [] [0x61, 0x62, 0x1F, 0x19]
      [0x41, 0x42, 0x3F, 0x39] ∧
    meetsCustomRoundTrip ⟨8, false, .none, false, false, false, 0x00, 0x00⟩ (streamOf [0x48, 0x69] 13).stream []
      [0x48] [0x48] := by
  refine ⟨?_, ?_, ?_, ?_⟩ <;>
    exact ⟨by decide, by decide, by decide, by decide, by decide, by decide, by decide, by decide, by decide, by decide⟩

theorem test_witness_CustomCharacterTable :
    6 ∈ [1, 2, 3, 4, 6] ∧ (9 : Byte).toNat ≤ 9 ∧ 9 < (10 : Byte).toNat := by decide

theorem test_witness_CustomWidthCheck :
    (0 : Nat) = 0 ∧ 8 < (9 : Nat) ∧ 1 ≤ (1 : Nat) ∧ (8 : Nat) ≤ 8 ∧
    (⟨9, true, .none, false, false, false, 0, 0⟩ : FormatSpec).bitsPerChar = 9 := by decide

/-- T1-6, T2-13, T2-12b, C-2b: each decoder fails on some stream; T1-1 and T2-1 succeed. -/
theorem test_witness_DecoderOutcomes :
    decodeT1 false (streamOf [0xA3, 0x0D, 0x1F, 0xC1, 0x80] 35).stream = .error .checksumFailed ∧
    decodeT2Span .exclEs {} (streamOf [0x00, 0x34] 15).stream = .error .invalidEndSentinel ∧
    decodeT2Span .exclEs { raw := true } (streamOf [0xD0, 0x3E] 15).stream = .error (.parityError 1) ∧
    decodeCustom ⟨4, false, .none, false, false, false, 0, 0⟩ (streamOf [0x12, 0xA0] 12).stream =
      .error (.invalidCharacter 2 10) ∧
    decodeFormat .track1 t11.stream = some (.ok [0x41, 0x42]) ∧
    decodeFormat .track2 t21.stream = some (.ok [0x31, 0x32]) := by decide +kernel

theorem test_witness_DescriptorAttempt :
    Instr.isCommand .track2 = false ∧ decodeFormat .track2 t21.stream = some (.ok [0x31, 0x32]) ∧
    Instr.isCommand .track2Even = false ∧ decodeFormat .track2Even t21.stream = some (.error (.parityError 0)) ∧
    (inOne t21).phase = .one ∧ (t21.setPhase (.list 15)).phase = .list 15 := by decide +kernel

theorem test_witness_DecodeOneRefinesRule :
    ({ t21 with flen := 17 } : State).flen.toNat > Config.nFL ∧
    (withArgs (withList t21 [2]) 1 0).arg0.toNat ≥ (withArgs (withList t21 [2]) 1 0).flen.toNat ∧
    (fullList.flen.toNat ≤ Config.nFL ∧ fullList.arg0.toNat < fullList.flen.toNat ∧
      legalDescriptor (fullList.flWord fullList.arg0.toNat) = true) ∧
    legalDescriptor ((withArgs (withList t21 [0x0B]) 0 0).flWord 0) = false := by decide +kernel

theorem test_witness_DecodeListRefinesRule :
    ({ t21 with flen := 17 } : State).flen.toNat > Config.nFL ∧ t21.flen = 0 ∧
    (1 < (withList t21 [2, 0x0B]).flen.toNat ∧ legalDescriptor ((withList t21 [2, 0x0B]).flWord 1) = false) ∧
    (fullList.flen.toNat ≤ Config.nFL ∧ fullList.flen ≠ 0 ∧
      ∀ k, k < fullList.flen.toNat → legalDescriptor (fullList.flWord k) = true) := by decide +kernel

/-- T2-1's stream with `TRACK1, TRACK2`: attempt 0 fails and attempt 1 succeeds; with `TRACK2_EVEN` every attempt fails. -/
theorem test_witness_DecodeListAgreesWithDecodeOne :
    (
      let s := withList t21 [0, 2]
      0 < s.flen.toNat ∧ s.flen.toNat ≤ Config.nFL ∧
      (∀ k, k < s.flen.toNat → legalDescriptor (s.flWord k) = true) ∧
      seen (engineStep { s with phase := .one, arg0 := BitVec.ofNat 32 0 }) (·.ok) = some false ∧
      seen (engineStep { s with phase := .one, arg0 := BitVec.ofNat 32 1 }) (·.ok) = some true) ∧
    (
      let s := withList t21 [8]
      0 < s.flen.toNat ∧ (∀ k, k < s.flen.toNat → legalDescriptor (s.flWord k) = true) ∧
      seen (engineStep { s with phase := .one, arg0 := BitVec.ofNat 32 0 }) (·.ok) = some false) := by decide +kernel

/-- A failing attempt, a succeeding one, and the exit at FPC = FLEN. -/
theorem test_witness_FormatCounterMoves :
    seen (engineStep ((withList t21 [0, 2]).setPhase (.list 0))) (·.phase) = some (.list 1) ∧
    seen (engineStep ((withList t21 [0, 2]).setPhase (.list 1))) (·.phase) = some .idle ∧
    (withList t21 [0, 8]).flen.toNat ≤ 2 ∧
    seen (engineStep ((withList t21 [0, 8]).setPhase (.list 2))) (·.phase) = some .idle ∧
    (decodeDescriptor ((withList t21 [0, 2]).flWord 0) = .ok .track1 ∧
      decodeFormat .track1 (withList t21 [0, 2]).stream = some (.error (.parityError 0))) ∧
    (decodeDescriptor ((withList t21 [0, 2]).flWord 1) = .ok .track2 ∧
      decodeFormat .track2 (withList t21 [0, 2]).stream = some (.ok [0x31, 0x32])) := by decide +kernel

theorem test_witness_OutReadsAsTheString :
    [(0x31 : Byte), 0x32].length ≤ Config.nOUT ∧ 1 < Config.nOUT ∧ 1 < [(0x31 : Byte), 0x32].length ∧
    2 < Config.nOUT ∧ [(0x31 : Byte), 0x32].length ≤ 2 ∧ 2047 < Config.nOUT := by decide

/-- A run of each of the frame's clauses: a command, LRC_PUSH, BS_NEW, a descriptor. -/
theorem test_witness_EngineFrame :
    seen (exec .nop t21) (·.sbits) = some 25 ∧ seen (exec .lrcPush (withArgs t21 1 0)) (·.lrcAcc) = some 1 ∧
    seen (exec .bsNew (withArgs t21 2 16)) (·.sbits) = some 16 ∧
    seen (exec .track2 (inOne t21)) (·.out) = some [0x31, 0x32] := by decide +kernel

/-- Besides the memberships: DECODE_ONE and DECODE_LIST accepted, and their runs to a success and to an error. -/
theorem test_witness_CommandOutcomes :
    (Instr.isCommand .nop = true ∧ Instr.nop ∈ [Instr.nop, .lrcClr, .lrcFinT2, .lrcFinT1]) ∧
    (Instr.isCommand .lrcPush = true ∧ Instr.lrcPush ∈ [Instr.invert, .checkParity, .lrcPush]) ∧
    (Instr.extractMsb ∈ [Instr.extractLsb, .extractMsb] ∧ Instr.isCommand .decodeOne = true ∧
      Instr.isCommand .decodeList = true) ∧
    exec .decodeOne (withList t21 [2]) = .next (inOne (withList t21 [2])) ∧
    seen (engineStep (inOne (withList t21 [2]))) (·.ok) = some true ∧
    seen (engineStep (inOne (withList t21 [8]))) (·.errKind) = some 4 ∧
    exec .decodeList (withList t21 [8]) = .next ((withList t21 [8]).setPhase (.list 0)) ∧
    seen (engineRun 2 ((withList t21 [8]).setPhase (.list 0))) (·.errKind) = some 2 := by
  refine ⟨by decide, by decide, by decide, rfl, by decide +kernel, by decide +kernel, rfl, by decide +kernel⟩

/-- The invariant holds in the middle of DECODE_LIST over a full list, with a schedule left. -/
theorem test_witness_EveryStepKeepsInvariant :
    midList.Inv ∧ seen (step midList) (·.phase) = some (.list 2) := by
  refine ⟨⟨⟨by decide, by decide⟩, ⟨by decide, by decide⟩, ⟨by decide, by decide⟩, .inl (by decide), ?_, ?_, ?_⟩, ?_⟩
  · exact test_witness_HostAccessWhileBusy_record
  · exact ⟨by decide, by decide, by decide +kernel⟩
  · exact ⟨by decide, by decide⟩
  · decide +kernel

theorem test_witness_MachineNeverStops : midList.Inv := test_witness_EveryStepKeepsInvariant.1

theorem test_witness_EveryCommandEnds : midList.Inv ∧ midList.busy = true :=
  ⟨test_witness_EveryStepKeepsInvariant.1, by decide⟩

/-- `midList` after another history: a byte of FB beyond the stream, a stale string's draw and the schedule differ. -/
def midListOther : State :=
  { midList with fb := midList.fb ++ [(200, 0x55)], inputs := [], outDraw := 3, draws := 7 }

theorem test_witness_ResultsDependOnlyOnTheStream :
    midList.Inv ∧ midListOther.Inv ∧ SameInputs midList midListOther ∧ SameRecord midList midListOther ∧
    midList ≠ midListOther ∧ seen (engineStep midList) (·.phase) = some (.list 2) := by
  refine ⟨test_witness_EveryStepKeepsInvariant.1,
    ⟨⟨by decide, by decide⟩, ⟨by decide, by decide⟩, ⟨by decide, by decide⟩, .inl (by decide), ?_, ?_, ?_⟩, ?_, ?_, ?_, ?_⟩
  · unfold State.recordWf; decide
  · exact ⟨by decide, by decide, by decide +kernel⟩
  · exact ⟨by decide, by decide⟩
  · unfold SameInputs; decide +kernel
  · unfold SameRecord; decide
  · decide
  · decide +kernel

/-- Each arm of `Track1Result`: T1-3, T1-8, T1-4, T1-9, T1-11, T1-10, T1-6, T1-7, T1-1. -/
theorem test_witness_Track1Result :
    decodeT1 false (streamOf [0xA3, 0x0D, 0x1F] 20).stream = .error (.bitstreamTooShort 20 21) ∧
    decodeT1 false (streamOf [0x03, 0x0D, 0x18] 21).stream = .error .invalidStartSentinel ∧
    decodeT1 true (streamOf [0x01, 0x46, 0x1F, 0xCD, 0xC0] 35).stream = .error (.parityError 1) ∧
    decodeT1 false (streamOf [0xA3, 0x0D, 0x18] 21).stream = .error .invalidEndSentinel ∧
    decodeT1 false (streamOf [0xA3, 0x0D, 0x17, 0xC9, 0x80] 35).stream = .error (.parityError 2) ∧
    decodeT1 false (streamOf [0xA3, 0x0D, 0x1F, 0xC0] 28).stream = .error (.bitstreamTooShort 28 35) ∧
    decodeT1 false (streamOf [0xA3, 0x0D, 0x1F, 0xC1, 0x80] 35).stream = .error .checksumFailed ∧
    decodeT1 false (streamOf [0xA3, 0xF1, 0x60] 21).stream = .error (.noValidFormat Config.emptyAttempted) ∧
    decodeT1 false t11.stream = .ok [0x41, 0x42] :=
  ⟨rfl, rfl, rfl, rfl, rfl, rfl, rfl, rfl, rfl⟩

/-- The hypothesis, and each arm of `Track2Result`: T2-5, T2-3 (read LSB-first), T2-13, T2-7, T2-9, T2-1b, T2-10, T2-1. -/
theorem test_witness_Track2Result :
    ({} : T2Params).raw = false ∧
    decodeT2Span .exclEs {} (streamOf [0xD4, 0x10] 14).stream = .error (.bitstreamTooShort 14 15) ∧
    decodeT2Span .exclEs {} (streamOf [0x0B, 0x08, 0xBF, 0x80] 28).stream = .error .invalidStartSentinel ∧
    decodeT2Span .exclEs {} (streamOf [0x00, 0x34] 15).stream = .error .invalidEndSentinel ∧
    decodeT2Span .exclEs {} (streamOf [0xD4, 0x13, 0xF1, 0x80] 25).stream = .error (.parityError 2) ∧
    decodeT2Span .exclEs {} (streamOf [0xD4, 0x11, 0xFB] 24).stream = .error (.bitstreamTooShort 24 25) ∧
    decodeT2Span .exclEs {} (streamOf [0xD4, 0x11, 0xFE, 0x80] 25).stream = .error .checksumFailed ∧
    decodeT2Span .exclEs {} (streamOf [0xD7, 0xF6] 15).stream = .error (.noValidFormat Config.emptyAttempted) ∧
    decodeT2Span .exclEs {} t21.stream = .ok [0x31, 0x32] :=
  ⟨rfl, rfl, rfl, rfl, rfl, rfl, rfl, rfl, rfl⟩

/-- Each arm of `CustomResult`: C-4, C-6a2, C-1c, C-6b2, C-6b, C-2b, C-6f, C-1, C-3. -/
theorem test_witness_CustomResult :
    decodeCustom ⟨9, true, .none, false, false, false, 0, 0⟩ t21.stream = .error (.invalidCustomFormat 1) ∧
    decodeCustom ⟨5, true, .none, false, true, false, 0x0A, 0⟩ t21.stream = .error .invalidStartSentinel ∧
    decodeCustom ⟨5, true, .odd, false, true, true, 0x0B, 0x1F⟩ (streamOf [0x1A, 0x82, 0x3E, 0x30] 28).stream =
      .error (.parityError 0) ∧
    decodeCustom ⟨5, true, .none, false, true, true, 0x0B, 0x1E⟩ t21.stream = .error .invalidEndSentinel ∧
    decodeCustom ⟨5, true, .odd, false, true, true, 0x0B, 0x1E⟩ t21.stream = .error (.parityError 4) ∧
    decodeCustom ⟨4, false, .none, false, false, false, 0, 0⟩ (streamOf [0x12, 0xA0] 16).stream =
      .error (.invalidCharacter 2 10) ∧
    decodeCustom ⟨5, true, .odd, false, true, true, 0x0B, 0x1F⟩ (streamOf [0xD7, 0xF6] 15).stream =
      .error (.noValidFormat Config.emptyAttempted) ∧
    decodeCustom ⟨5, true, .odd, false, true, true, 0x0B, 0x1F⟩ t21.stream = .ok [0x31, 0x32] ∧
    decodeCustom ⟨8, false, .none, false, false, false, 0, 0⟩ (streamOf [0x48, 0x69] 16).stream = .ok [0x48, 0x69] :=
  ⟨rfl, rfl, rfl, rfl, rfl, rfl, rfl, rfl, rfl⟩

end Sys2Proof.Tests
end

section
/-! PROOFS. Memory (20_memory.md): a host write into FB, the bit order of the stream, and MemRead. -/

namespace Sys2Proof.Machine

/-! ### A host write into FB (R70) -/

/-- While the block is idle, a host write is the store to the register that its address names. -/
theorem State.hostAccess_write_of_idle {s : State} (hidle : s.busy = false) (addr : Nat) (data : Word) :
    s.hostAccess (.write addr data) = s.hostStore (hostReg addr) data := by
  rcases s.hostWrite_cases addr data with ⟨hbusy, -⟩ | ⟨-, hstore⟩
  · simp [hidle] at hbusy
  · exact hstore

/-- An accepted host write into the window of FB stores bits 7:0 of the data. -/
theorem State.hostAccess_write_fb {s : State} (hidle : s.busy = false) {i : Nat} (hi : i < Config.nFB) (data : Word) :
    s.hostAccess (.write (0x100 + i) data) = s.writeFB i (data.extractLsb' 0 8) := by
  rw [State.hostAccess_write_of_idle hidle, hostReg_fb hi]
  rfl

@[simp] theorem State.writeFB_fbByte_same (s : State) (i : Nat) (b : Byte) : (s.writeFB i b).fbByte i = b := by
  rw [State.writeFB_fbByte, if_pos rfl]

theorem State.writeFB_fbByte_other (s : State) {i j : Nat} (b : Byte) (h : j ≠ i) :
    (s.writeFB i b).fbByte j = s.fbByte j := by
  rw [State.writeFB_fbByte, if_neg h]

@[simp] theorem State.writeFB_sempty (s : State) (i : Nat) (b : Byte) : (s.writeFB i b).sempty = true := rfl

/-- The frame of a write into FB: FB, SBITS and SLEN are all that it touches. -/
theorem State.writeFB_frame (s : State) (i : Nat) (b : Byte) :
    s.writeFB i b = { s with fb := (s.writeFB i b).fb, sbits := 0, slen := 0 } := rfl

/-- Settles O13: the write is `writeFB`, whose reads and frame are the lemmas above. -/
theorem frameBufferWriteEmptiesStream : Obligations.FrameBufferWriteEmptiesStream := by
  intro s i data hidle hi
  exact ⟨s.writeFB i (data.extractLsb' 0 8), State.hostAccess_write_fb hidle hi data,
    s.writeFB_fbByte_same i _, fun _ hj => s.writeFB_fbByte_other _ hj,
    s.writeFB_sbits i _, s.writeFB_slen i _, s.writeFB_sempty i _, s.writeFB_frame i _⟩

/-! ### The bit order of the stream (R62) -/

/-- A bit of the stream as arithmetic on its byte: the rule's formula, for any stream. -/
theorem Stream.toNat_bit (st : Stream) (i : Nat) :
    (st.bit i).toNat = (st.byte (i / 8)).toNat / 2 ^ (7 - i % 8) % 2 := by
  rw [Stream.bit, ← BitVec.testBit_toNat, Nat.toNat_testBit]

/-- Settles O19: the machine's stream reads FB's bytes, so the formula of a stream bit is about them. -/
theorem streamBitOrder : Obligations.StreamBitOrder := by
  intro s i
  exact ⟨s.stream.toNat_bit i, s.stream_bitCount⟩

/-! ### MemRead (R64) -/

/-- Settles O20: out of range is MemRead's own test, and a list that it answers is `Stream.bits`. -/
theorem memReadBits : Obligations.MemReadBits := by
  intro st o w
  refine ⟨memRead_eq_none_iff st o w, fun l hread => ?_⟩
  obtain ⟨-, rfl⟩ := (memRead_eq_some_iff st o w l).1 hread
  exact ⟨st.length_bits o w, fun k hk => st.getElem_bits o w k hk⟩

end Sys2Proof.Machine
end

section
/-! PROOFS. The construction of the stream (40_bitstream.md R130). -/

namespace Sys2Proof.Machine

/-- The one equation of BS_NEW's dispatch; its outcomes are stated below. -/
theorem exec_bsNew (s : State) : exec .bsNew s = execBsNew s := rfl

/-- More provided bytes than FB has: BS_NEW is refused and nothing else changes. -/
theorem exec_bsNew_of_nFB_lt {s : State} (h : Config.nFB < s.arg0.toNat) :
    exec .bsNew s = .next (s.endRefused rejOperand) := by
  rw [exec_bsNew, execBsNew, bsNewOperands_eq, if_neg (Nat.not_le.2 h)]

/-- Operands in the domain: BS_NEW runs its body on ARG0's byte count and ARG1's bit count. -/
theorem exec_bsNew_of_le_nFB {s : State} (h : s.arg0.toNat ≤ Config.nFB) :
    exec .bsNew s = .next (constructStream s.arg0.toNat s.arg1.toNat s) := by
  rw [exec_bsNew, execBsNew, bsNewOperands_eq, if_pos h]

/-- Rounding the bits up to bytes exceeds a byte count exactly when the bits themselves do. -/
theorem lt_requiredBytes_iff (provided bitCount : Nat) :
    provided < requiredBytes bitCount ↔ 8 * provided < bitCount := by
  unfold requiredBytes; omega

/-- Too few bytes for the bits: the construction fails and the empty stream is left. -/
theorem constructStream_of_lt_requiredBytes {provided bitCount : Nat} (s : State)
    (h : provided < requiredBytes bitCount) :
    constructStream provided bitCount s =
      (s.setStream 0 0).endError (.lengthMismatch (requiredBytes bitCount) provided) := by
  rw [lt_requiredBytes_iff] at h
  obtain ⟨-, hfail⟩ | ⟨hfits, -⟩ := constructStream_cases provided bitCount s
  · exact hfail
  · omega

/-- Bytes enough for a bit count held in a word: the stream of that many bits, the word kept as it is. -/
theorem constructStream_of_requiredBytes_le {provided : Nat} (bits : Word) (s : State)
    (h : requiredBytes bits.toNat ≤ provided) :
    constructStream provided bits.toNat s =
      (s.setStream bits (BitVec.ofNat Config.xlen (requiredBytes bits.toNat))).endOk 0 := by
  rw [← Nat.not_lt, lt_requiredBytes_iff] at h
  obtain ⟨hlong, -⟩ | ⟨-, hok⟩ := constructStream_cases provided bits.toNat s
  · omega
  · rw [hok, BitVec.ofNat_toNat, BitVec.setWidth_eq]

/-- Settles O29: the operand form decides the refusal, and the construction the other two outcomes. -/
theorem bsNewResult : Obligations.BsNewResult := by
  refine ⟨by decide, fun s => ⟨?refused, ?mismatch, ?constructed⟩⟩
  case refused => exact exec_bsNew_of_nFB_lt
  case mismatch =>
    intro hprovided hrequired
    rw [exec_bsNew_of_le_nFB hprovided, constructStream_of_lt_requiredBytes s hrequired]
    rfl
  case constructed =>
    intro hprovided hrequired
    rw [exec_bsNew_of_le_nFB hprovided, constructStream_of_requiredBytes_le s.arg1 s hrequired]
    rfl

end Sys2Proof.Machine
end

section
/-! PROOFS. The primitives as host commands (41_primitives.md): the two extractions, the complement, the parity check and
the running checksum. -/

namespace Sys2Proof.Machine

/-! ### The windows as the rules' sums (R150, R152) -/

/-- The LSB-first value of a window's bits is the sum of R150. -/
theorem bitsLsbFirst_bits (st : Stream) (o w : Nat) :
    bitsLsbFirst (st.bits o w) = ((List.range w).map fun k => (st.bit (o + k)).toNat * 2 ^ k).sum := by
  rw [bitsLsbFirst_eq_sum]
  congr 1
  apply List.ext_getElem <;> simp [Stream.getElem_bits]

/-- The MSB-first value of a window's bits is the sum of R152: the LSB-first sum read from the window's other end. -/
theorem bitsMsbFirst_bits (st : Stream) (o w : Nat) :
    bitsMsbFirst (st.bits o w) = ((List.range w).map fun k => (st.bit (o + k)).toNat * 2 ^ (w - 1 - k)).sum := by
  rw [bitsMsbFirst_eq_reverse, bitsLsbFirst_eq_sum, ← List.sum_reverse]
  congr 1
  apply List.ext_getElem
  · simp
  · intro k hk _
    have hkw : k < w := by simpa using hk
    have hflip : w - 1 - (w - 1 - k) = k := by omega
    simp [Stream.getElem_bits, hflip]

theorem bitsMsbFirst_lt (l : List Bool) : bitsMsbFirst l < 2 ^ l.length := by
  simpa [bitsMsbFirst_eq_reverse] using bitsLsbFirst_lt l.reverse

/-- Up to 8 bits fit in a byte, so a window's byte loses nothing of its value. -/
theorem toNat_ofNat_byte {n w : Nat} (hn : n < 2 ^ w) (hw : w ≤ 8) : (BitVec.ofNat 8 n).toNat = n :=
  Nat.mod_eq_of_lt (hn.trans_le (Nat.pow_le_pow_right (by decide) hw))

theorem Stream.windowLsb_toNat (st : Stream) (o : Nat) {w : Nat} (hw : w ≤ 8) :
    (st.windowLsb o w).toNat = ((List.range w).map fun k => (st.bit (o + k)).toNat * 2 ^ k).sum := by
  have hlt : bitsLsbFirst (st.bits o w) < 2 ^ w := by simpa using bitsLsbFirst_lt (st.bits o w)
  rw [Stream.windowLsb, toNat_ofNat_byte hlt hw, bitsLsbFirst_bits]

theorem Stream.windowMsb_toNat (st : Stream) (o : Nat) {w : Nat} (hw : w ≤ 8) :
    (st.windowMsb o w).toNat = ((List.range w).map fun k => (st.bit (o + k)).toNat * 2 ^ (w - 1 - k)).sum := by
  have hlt : bitsMsbFirst (st.bits o w) < 2 ^ w := by simpa using bitsMsbFirst_lt (st.bits o w)
  rw [Stream.windowMsb, toNat_ofNat_byte hlt hw, bitsMsbFirst_bits]

/-! ### EXTRACT_LSB and EXTRACT_MSB (R151, R153) -/

/-- The state both extractions end in, given how the window is read: R153 is "as in rule R151" but for that. The
operands are compared as natural numbers. -/
def State.extractEnd (window : Stream → Nat → Nat → Byte) (s : State) : State :=
  if 8 < s.arg1.toNat then s.endRefused rejOperand
  else if s.sbits.toNat < s.arg0.toNat + s.arg1.toNat then s.endError .outOfRange
  else s.endOk ((window s.stream s.arg0.toNat s.arg1.toNat).setWidth Config.xlen)

/-- The epilogue of an extraction, for a read that answers a window when it lies in the stream. -/
theorem endExtract_window (s : State) (o w : Nat) (v : Byte) :
    endExtract s (if o + w > s.stream.bitCount then none else some v) =
      if s.sbits.toNat < o + w then s.endError .outOfRange else s.endOk (v.setWidth Config.xlen) := by
  rw [State.stream_bitCount]
  split <;> rfl

theorem exec_extractLsb (s : State) : exec .extractLsb s = .next (s.extractEnd Stream.windowLsb) := by
  show execExtractLsb s = _
  rw [execExtractLsb, extractOperands_eq, State.extractEnd]
  by_cases hw : s.arg1.toNat ≤ 8
  · rw [if_pos hw, if_neg (Nat.not_lt.2 hw), ← endExtract_window, ← exLsb_eq]
  · rw [if_neg hw, if_pos (Nat.lt_of_not_le hw)]

theorem exec_extractMsb (s : State) : exec .extractMsb s = .next (s.extractEnd Stream.windowMsb) := by
  show execExtractMsb s = _
  rw [execExtractMsb, extractOperands_eq, State.extractEnd]
  by_cases hw : s.arg1.toNat ≤ 8
  · rw [if_pos hw, if_neg (Nat.not_lt.2 hw), ← endExtract_window, ← exMsb_eq]
  · rw [if_neg hw, if_pos (Nat.lt_of_not_le hw)]

/-- The three ends of an extraction, exclusive and complete, for an instruction that ends in `extractEnd`; `n` is the
value of its window. -/
theorem extract_outcomes {i : Instr} {s : State} {window : Stream → Nat → Nat → Byte} {n : Nat}
    (hexec : exec i s = .next (s.extractEnd window))
    (hvalue : s.arg1.toNat ≤ 8 → (window s.stream s.arg0.toNat s.arg1.toNat).toNat = n) :
    (s.arg1.toNat > 8 → exec i s = .next (s.endRefused rejOperand)) ∧
    (s.arg1.toNat ≤ 8 → s.arg0.toNat + s.arg1.toNat > s.sbits.toNat →
      exec i s = .next (s.endError .outOfRange)) ∧
    (s.arg1.toNat ≤ 8 → s.arg0.toNat + s.arg1.toNat ≤ s.sbits.toNat →
      exec i s = .next (s.endOk (BitVec.ofNat Config.xlen n))) := by
  rw [hexec, State.extractEnd]
  refine ⟨fun hw => ?refused, fun hw hrange => ?outOfRange, fun hw hrange => ?inRange⟩
  case refused => rw [if_pos hw]
  case outOfRange => rw [if_neg (Nat.not_lt.2 hw), if_pos hrange]
  case inRange => rw [if_neg (Nat.not_lt.2 hw), if_neg (Nat.not_lt.2 hrange), ← hvalue hw, BitVec.ofNat_toNat]

/-- Settles O22: the three ends of an extraction, the window's value being the sum of R150. -/
theorem extractLsbResult : Obligations.ExtractLsbResult :=
  ⟨by decide, fun s => extract_outcomes (exec_extractLsb s) (s.stream.windowLsb_toNat _)⟩

/-- Settles O23: the three ends of an extraction, the window's value being the sum of R152. -/
theorem extractMsbResult : Obligations.ExtractMsbResult :=
  ⟨by decide, fun s => extract_outcomes (exec_extractMsb s) (s.stream.windowMsb_toNat _)⟩

/-! ### The byte operand of INVERT, CHECK_PARITY and LRC_PUSH (30_encoding.md R92) -/

theorem byteOperand_of_lt {s : State} (h : s.arg0.toNat < 256) : byteOperand s = some (s.arg0.setWidth 8) := by
  rw [byteOperand_eq, if_pos h]

theorem byteOperand_of_le {s : State} (h : 256 ≤ s.arg0.toNat) : byteOperand s = none := by
  rw [byteOperand_eq, if_neg (Nat.not_lt.2 h)]

/-! ### INVERT (R156) -/

theorem exec_invert_of_lt {s : State} (h : s.arg0.toNat < 256) :
    exec .invert s = .next (s.endOk ((invertByte (s.arg0.setWidth 8)).setWidth Config.xlen)) := by
  show execInvert s = _
  rw [execInvert, byteOperand_of_lt h]

theorem exec_invert_of_le {s : State} (h : 256 ≤ s.arg0.toNat) :
    exec .invert s = .next (s.endRefused rejOperand) := by
  show execInvert s = _
  rw [execInvert, byteOperand_of_le h]

/-- Settles O24: the complement of a byte is its distance from 255, and the operand keeps its value as a byte. -/
theorem invertResult : Obligations.InvertResult := by
  refine ⟨by decide, fun s => ⟨fun h => ?_, exec_invert_of_le⟩⟩
  rw [exec_invert_of_lt h, ← BitVec.ofNat_toNat Config.xlen, invertByte_toNat, BitVec.toNat_setWidth,
    Nat.mod_eq_of_lt h]

/-! ### CHECK_PARITY (R157, R158) -/

/-- The mask of `w` bits has exactly the low `w` bits set. -/
theorem widthMask_getLsbD {w k : Nat} (hk : k < 8) : (widthMask w).getLsbD k = decide (k < w) := by
  rw [widthMask, BitVec.getLsbD_ofNat, Nat.testBit_two_pow_sub_one]
  simp [hk]

/-- Counting the ones of a masked byte is counting those of its low `w` bits. -/
theorem popcount_and_widthMask (v : Byte) {w : Nat} (hw : w ≤ 8) :
    popcount (v &&& widthMask w) = (List.range w).countP fun k => v.getLsbD k := by
  have hsplit : List.range 8 = List.range w ++ (List.range (8 - w)).map (w + ·) := by
    rw [← List.range_add, Nat.add_sub_cancel' hw]
  have hlow : (List.range w).countP (fun k => (v &&& widthMask w).getLsbD k) =
      (List.range w).countP fun k => v.getLsbD k := by
    refine List.countP_congr fun k hk => ?_
    have hkw := List.mem_range.1 hk
    simp [widthMask_getLsbD (w := w) (show k < 8 by omega), hkw]
  have hhigh : ((List.range (8 - w)).map (w + ·)).countP (fun k => (v &&& widthMask w).getLsbD k) = 0 := by
    rw [List.countP_eq_zero]
    intro k hk
    obtain ⟨j, hj, rfl⟩ := List.mem_map.1 hk
    have hjw := List.mem_range.1 hj
    simp [widthMask_getLsbD (w := w) (show w + j < 8 by omega)]
  rw [popcount, hsplit, List.countP_append, hlow, hhigh, Nat.add_zero]

/-- The operand form of CHECK_PARITY in numbers: the mode is what stands above the width, a code of R92 or none. -/
theorem checkParityOperands_eq (s : State) :
    checkParityOperands s =
      if s.arg0.toNat < 256 ∧ s.arg1.toNat % 16 ≤ 8 ∧ s.arg1.toNat / 16 < 4 then
        (parityOfCode (BitVec.ofNat 2 (s.arg1.toNat / 16))).map fun mode =>
          (s.arg0.setWidth 8, s.arg1.toNat % 16, mode)
      else none := by
  have hwidth : (s.arg1.extractLsb' 0 4).toNat = s.arg1.toNat % 16 := by simp [BitVec.extractLsb'_toNat]
  have hmode : s.arg1.extractLsb' 4 2 = BitVec.ofNat 2 (s.arg1.toNat / 16) := by
    apply BitVec.eq_of_toNat_eq
    simp [BitVec.extractLsb'_toNat, Nat.shiftRight_eq_div_pow]
  unfold checkParityOperands
  rw [byteOperand_eq, hwidth, hmode]
  simp only [ne_eq, extractLsb'_eq_zero_iff s.arg1 6 26 rfl]
  by_cases hvalue : s.arg0.toNat < 256
  · rw [if_pos hvalue]
    by_cases hreserved : s.arg1.toNat < 2 ^ 6
    · by_cases hw : s.arg1.toNat % 16 ≤ 8
      · rw [if_pos (by omega)]
        simp only [hreserved, not_true_eq_false, if_false, if_neg (Nat.not_lt.2 hw)]
        cases parityOfCode (BitVec.ofNat 2 (s.arg1.toNat / 16)) <;> rfl
      · rw [if_neg (by omega)]
        simp only [hreserved, not_true_eq_false, if_false, if_pos (Nat.lt_of_not_le hw)]
    · rw [if_neg (by omega)]
      simp only [hreserved, not_false_eq_true, if_true]
  · rw [if_neg hvalue, if_neg (by omega)]

/-- Outside the domain of any operand CHECK_PARITY is refused; mode 3 is the code that names no mode. -/
theorem exec_checkParity_of_outside {s : State}
    (h : s.arg0.toNat ≥ 256 ∨ s.arg1.toNat % 16 > 8 ∨ s.arg1.toNat / 16 > 2) :
    exec .checkParity s = .next (s.endRefused rejOperand) := by
  show execCheckParity s = _
  have hnone : checkParityOperands s = none := by
    rw [checkParityOperands_eq]
    split
    · rw [show s.arg1.toNat / 16 = 3 by omega]
      rfl
    · rfl
  rw [execCheckParity, hnone]

/-- In the domain, with the number of a mode above the width, RES is 1 or 0 by that mode's test. -/
theorem exec_checkParity_of_mode {s : State} (m : ParityMode) (hvalue : s.arg0.toNat < 256)
    (hw : s.arg1.toNat % 16 ≤ 8) (hm : s.arg1.toNat / 16 = m.code.toNat) :
    exec .checkParity s =
      .next (s.endOk (if parityOk (s.arg0.setWidth 8) (s.arg1.toNat % 16) m then 1 else 0)) := by
  show execCheckParity s = _
  have hsome : checkParityOperands s = some (s.arg0.setWidth 8, s.arg1.toNat % 16, m) := by
    rw [checkParityOperands_eq, if_pos ⟨hvalue, hw, hm ▸ m.code.isLt⟩, hm, BitVec.ofNat_toNat, BitVec.setWidth_eq,
      Laws.WordIsLegal.parityOfCode_code]
    rfl
  rw [execCheckParity, hsome]

/-- The ones counted among the low bits of a byte operand are the ones of the word it was taken from. -/
theorem countP_getLsbD_setWidth (x : Word) {w : Nat} (hw : w ≤ 8) :
    ((List.range w).countP fun k => (x.setWidth 8).getLsbD k) = (List.range w).countP fun k => x.getLsbD k := by
  refine List.countP_congr fun k hk => ?_
  have hkw := List.mem_range.1 hk
  simp [show k < 8 by omega]

/-- The odd test's result as a number. -/
theorem parityOk_odd_result (x : Word) {w : Nat} (hw : w ≤ 8) :
    (if parityOk (x.setWidth 8) w .odd then (1 : Word) else 0) =
      BitVec.ofNat Config.xlen (((List.range w).countP fun k => x.getLsbD k) % 2) := by
  rw [parityOk, popcount_and_widthMask _ hw, countP_getLsbD_setWidth x hw]
  rcases Nat.mod_two_eq_zero_or_one ((List.range w).countP fun k => x.getLsbD k) with h | h <;> rw [h] <;> rfl

/-- The even test's result as a number. -/
theorem parityOk_even_result (x : Word) {w : Nat} (hw : w ≤ 8) :
    (if parityOk (x.setWidth 8) w .even then (1 : Word) else 0) =
      BitVec.ofNat Config.xlen ((((List.range w).countP fun k => x.getLsbD k) + 1) % 2) := by
  rw [parityOk, popcount_and_widthMask _ hw, countP_getLsbD_setWidth x hw, Nat.add_mod]
  rcases Nat.mod_two_eq_zero_or_one ((List.range w).countP fun k => x.getLsbD k) with h | h <;> rw [h] <;> rfl

/-- Settles O25: the operand form decides the refusal and the mode, and each mode's test is a count of ones. -/
theorem checkParityResult : Obligations.CheckParityResult := by
  refine ⟨by decide, fun s => ⟨exec_checkParity_of_outside, fun hvalue hw hm => ?none, fun hvalue hw hm => ?odd,
    fun hvalue hw hm => ?even⟩⟩
  case none => exact exec_checkParity_of_mode .none hvalue hw hm
  case odd => rw [exec_checkParity_of_mode .odd hvalue hw hm, parityOk_odd_result s.arg0 hw]
  case even => rw [exec_checkParity_of_mode .even hvalue hw hm, parityOk_even_result s.arg0 hw]

/-! ### LRC_CLR and LRC_PUSH (R162, R163) -/

theorem exec_lrcClr (s : State) : exec .lrcClr s = .next { s.endOk 0 with lrcAcc := 0 } := rfl

theorem exec_lrcPush_of_lt {s : State} (h : s.arg0.toNat < 256) :
    exec .lrcPush s = .next { s.endOk 0 with lrcAcc := s.lrcAcc ^^^ s.arg0.setWidth 8 } := by
  show execLrcPush s = _
  rw [execLrcPush, byteOperand_of_lt h]
  rfl

theorem exec_lrcPush_of_le {s : State} (h : 256 ≤ s.arg0.toNat) :
    exec .lrcPush s = .next (s.endRefused rejOperand) := by
  show execLrcPush s = _
  rw [execLrcPush, byteOperand_of_le h]

/-- A character put in ARG0 is a byte operand, so its push is accepted. -/
theorem exec_lrcPush_char (s : State) (c : Byte) :
    exec .lrcPush { s with arg0 := c.setWidth Config.xlen } =
      .next { s.endOk 0 with arg0 := c.setWidth Config.xlen, lrcAcc := s.lrcAcc ^^^ c } := by
  have hvalue : (c.setWidth Config.xlen).toNat < 256 := by
    rw [BitVec.toNat_setWidth_of_le (by decide)]
    exact c.isLt
  rw [exec_lrcPush_of_lt hvalue, BitVec.setWidth_setWidth_of_le _ (by decide), BitVec.setWidth_eq]
  rfl

theorem pushChars_cons (c : Byte) (cs : List Byte) (s : State) :
    pushChars (c :: cs) s =
      pushChars cs { s.endOk 0 with arg0 := c.setWidth Config.xlen, lrcAcc := s.lrcAcc ^^^ c } := by
  rw [pushChars, exec_lrcPush_char]

/-- From a state whose last command was a success with RES 0, pushes change only LRCACC, by the XOR of the characters,
and ARG0. -/
theorem pushChars_endOk (s : State) (chars : List Byte) (acc : Byte) (x : Word) :
    ∃ y, pushChars chars { s.endOk 0 with lrcAcc := acc, arg0 := x } =
      .next { s.endOk 0 with lrcAcc := chars.foldl (· ^^^ ·) acc, arg0 := y } := by
  induction chars generalizing acc x with
  | nil => exact ⟨x, rfl⟩
  | cons c cs ih =>
    rw [pushChars_cons]
    exact ih (acc ^^^ c) (c.setWidth Config.xlen)

/-- Settles O27: the two commands' equations, and the pushes by induction over the list. -/
theorem lrcAccumulates : Obligations.LrcAccumulates := by
  refine ⟨by decide, by decide, fun s => ⟨exec_lrcClr s, fun h => ?push, exec_lrcPush_of_le, fun chars => ?list⟩⟩
  case push => rw [exec_lrcPush_of_lt h, BitVec.ofNat_toNat]
  case list =>
    obtain ⟨y, hpush⟩ := pushChars_endOk s chars 0 s.arg0
    exact ⟨_, hpush, rfl⟩

end Sys2Proof.Machine
end

section
/-! PROOFS. The shortest streams that the Track1 and Track2 decoders read (42_track1.md R181, 43_track2.md R204). -/

namespace Sys2Proof.Machine

/-- R181 line 1: the length test precedes every window. -/
theorem decodeT1_of_short {st : Stream} (hshort : st.bitCount < 21) (inv : Bool) :
    decodeT1 inv st = .error (.bitstreamTooShort st.bitCount 21) := by
  rw [decodeT1, if_pos hshort]

/-- R204: the length test comes first once raw mode, which has none, is set aside. -/
theorem decodeT2Span_of_short {st : Stream} {par : T2Params} (hshort : st.bitCount < 15) (hraw : par.raw = false)
    (span : LrcSpan) : decodeT2Span span par st = .error (.bitstreamTooShort st.bitCount 15) := by
  have hnotRaw : ¬ par.raw = true := by simp [hraw]
  rw [decodeT2Span, if_neg hnotRaw, if_pos hshort]

/-- Settles O32: each decoder's own length test, for every polarity, parameter set and span. -/
theorem minimumLengths : Obligations.MinimumLengths := by
  intro st inv span par
  exact ⟨fun hshort => decodeT1_of_short hshort inv, fun hshort hraw => decodeT2Span_of_short hshort hraw span⟩

end Sys2Proof.Machine
end

section
/-! PROOFS. The result of the non-raw Track2 family on every stream (43_track2.md R204, R206 to R208). -/

namespace Sys2Proof.Machine

/-! ### What the locked scan has read when it reaches a window (R207) -/

/-- The canonical value of window `k` from the lock. -/
def t2Window (par : T2Params) (st : Stream) (lock k : Nat) : Byte := canon par st (lock + 5 * k)

/-- Window `k` ends the scan: it is of wrong parity or the end sentinel (R207 lines 5 and 6). -/
def t2Stops (par : T2Params) (st : Stream) (lock k : Nat) : Bool :=
  !parityOk (t2Window par st lock k) 5 par.mode || t2Window par st lock k == 0x1F#8

/-- CHARS at window `k` (R207 line 7): the start sentinel and the data characters read so far. -/
def t2Chars (par : T2Params) (st : Stream) (lock k : Nat) : List Byte := (List.range k).map (t2Window par st lock)

/-- STR at window `k` (R207 line 8): CHARS without the start sentinel, mapped (R209). -/
def t2Text (par : T2Params) (st : Stream) (lock k : Nat) : List Byte :=
  (List.range (k - 1)).map fun j => t2Char (t2Window par st lock (j + 1))

/-- What the scan answers at a window that ends it (R207 line 5, R208). -/
def t2Ending (span : LrcSpan) (par : T2Params) (st : Stream) (lock b : Nat) : DecodeResult :=
  if parityOk (t2Window par st lock b) 5 par.mode = false then .error (.parityError b)
  else t2Checksum span par st (lock + 5 * b) (t2Window par st lock b) (t2Chars par st lock b) (t2Text par st lock b)

theorem t2Chars_succ (par : T2Params) (st : Stream) (lock k : Nat) :
    t2Chars par st lock (k + 1) = t2Chars par st lock k ++ [t2Window par st lock k] := by
  rw [t2Chars, List.range_succ, List.map_append]
  rfl

/-- The start sentinel, window 0, is the one character that the string does not get. -/
theorem t2Text_succ (par : T2Params) (st : Stream) (lock k : Nat) :
    t2Text par st lock (k + 1) =
      if k > 0 then t2Text par st lock k ++ [t2Char (t2Window par st lock k)] else t2Text par st lock k := by
  cases k with
  | zero => rfl
  | succ k =>
    rw [if_pos k.succ_pos, t2Text, Nat.add_sub_cancel, List.range_succ, List.map_append]
    rfl

/-- After the start sentinel the string is empty at window 1 alone, where no data character has been read. -/
theorem nonEmpty_t2Text (par : T2Params) (st : Stream) (lock : Nat) {b : Nat} (hb : 0 < b) :
    nonEmpty (t2Text par st lock b) =
      if b = 1 then .error (.noValidFormat Config.emptyAttempted) else .ok (t2Text par st lock b) := by
  have hempty : t2Text par st lock b = [] ↔ b = 1 := by
    rw [t2Text, List.map_eq_nil_iff, List.range_eq_nil]
    omega
  simp only [nonEmpty, hempty]

/-! ### The scan as a search for the window that ends it -/

/-- One window of the locked scan, with what has been read up to it: the scan ends there or reads the window and goes on. -/
theorem t2Scan_window (span : LrcSpan) (par : T2Params) (st : Stream) (lock n k : Nat) :
    t2Scan span par st (n + 1) (lock + 5 * k) k (t2Chars par st lock k) (t2Text par st lock k) =
      if t2Stops par st lock k then t2Ending span par st lock k
      else t2Scan span par st n (lock + 5 * (k + 1)) (k + 1) (t2Chars par st lock (k + 1))
        (t2Text par st lock (k + 1)) := by
  rw [t2Scan_succ, t2Chars_succ, t2Text_succ, t2Ending, t2Stops, Nat.mul_succ, ← Nat.add_assoc, ← t2Window]
  by_cases hbad : parityOk (t2Window par st lock k) 5 par.mode = false
  · simp [hbad]
  · by_cases hend : t2Window par st lock k = 0x1F#8 <;> simp [hbad, hend]

/-- From window `k` the scan over the windows left answers the ending at the first of them that stops it. -/
theorem t2Scan_eq_find (span : LrcSpan) (par : T2Params) (st : Stream) (lock n k : Nat) :
    t2Scan span par st n (lock + 5 * k) k (t2Chars par st lock k) (t2Text par st lock k) =
      ((List.range (k + n)).find? fun j => decide (k ≤ j) && t2Stops par st lock j).elim
        (.error .invalidEndSentinel) (t2Ending span par st lock) := by
  induction n generalizing k with
  | zero => rw [find_range_from, if_neg (by omega)]; rfl
  | succ n ih =>
    have hmore : k < k + (n + 1) := by omega
    have hwindows : k + 1 + n = k + (n + 1) := by omega
    rw [t2Scan_window, find_range_from, if_pos hmore, ih, hwindows]
    cases t2Stops par st lock k <;> rfl

/-- The whole scan, from the lock. -/
theorem t2Scan_lock (span : LrcSpan) (par : T2Params) (st : Stream) (lock : Nat) :
    t2Scan span par st (st.windowsFrom lock 5) lock 0 [] [] =
      ((List.range ((st.bitCount - lock) / 5)).find? (t2Stops par st lock)).elim
        (.error .invalidEndSentinel) (t2Ending span par st lock) := by
  have hscan := t2Scan_eq_find span par st lock (st.windowsFrom lock 5) 0
  simpa [t2Chars, t2Text, Stream.windowsFrom] using hscan

/-! ### The end of the scan (R208) -/

/-- The lock holds the start sentinel (R206), so a window that stops the scan with right parity comes after it. -/
theorem pos_of_t2Stops {par : T2Params} {st : Stream} {lock b : Nat} (hlock : canon par st lock = 0x0B#8)
    (hstop : t2Stops par st lock b = true) (hgood : ¬ parityOk (t2Window par st lock b) 5 par.mode = false) :
    0 < b := by
  have hend : t2Window par st lock b = 0x1F#8 := by simpa [t2Stops, hgood] using hstop
  refine Nat.pos_of_ne_zero fun hzero => ?_
  have hstart : t2Window par st lock b = 0x0B#8 := by rw [hzero]; exact hlock
  exact absurd (hstart.symm.trans hend) (by decide)

/-- The check that the window after the end sentinel is compared with: over CHARS, to which `INCL_ES` adds the end sentinel,
and in the stream's polarity. -/
def t2Check (span : LrcSpan) (par : T2Params) (st : Stream) (lock b : Nat) : Byte :=
  let check := lrcT2 (t2Chars par st lock (if span = .inclEs then b + 1 else b))
  if par.inv then check ^^^ 0x1F#8 else check

theorem t2Checksum_window (span : LrcSpan) (par : T2Params) (st : Stream) (lock b : Nat) (str : List Byte) :
    t2Checksum span par st (lock + 5 * b) (t2Window par st lock b) (t2Chars par st lock b) str =
      if lock + 5 * (b + 1) + 5 > st.bitCount then .error (.bitstreamTooShort st.bitCount (lock + 5 * (b + 1) + 5))
      else if t2Window par st lock (b + 1) ≠ t2Check span par st lock b then .error .checksumFailed
      else nonEmpty str := by
  cases span with
  | exclEs => rfl
  | inclEs => rw [t2Check, if_pos rfl, t2Chars_succ]; rfl

/-- The answer at a window that stops the scan: its parity, then the checksum window, then the data. -/
theorem t2Ending_of_stops (span : LrcSpan) {par : T2Params} {st : Stream} {lock b : Nat}
    (hlock : canon par st lock = 0x0B#8) (hstop : t2Stops par st lock b = true) :
    t2Ending span par st lock b =
      if parityOk (t2Window par st lock b) 5 par.mode = false then .error (.parityError b)
      else if lock + 5 * (b + 1) + 5 > st.bitCount then
        .error (.bitstreamTooShort st.bitCount (lock + 5 * (b + 1) + 5))
      else if t2Window par st lock (b + 1) ≠ t2Check span par st lock b then .error .checksumFailed
      else if b = 1 then .error (.noValidFormat Config.emptyAttempted)
      else .ok (t2Text par st lock b) := by
  rw [t2Ending]
  by_cases hgood : parityOk (t2Window par st lock b) 5 par.mode = false
  · rw [if_pos hgood, if_pos hgood]
  · rw [if_neg hgood, if_neg hgood, t2Checksum_window, nonEmpty_t2Text par st lock (pos_of_t2Stops hlock hstop hgood)]

/-! ### The whole decoder -/

/-- Past the length test, without a start sentinel (R206). -/
theorem decodeT2Span_of_search_none {par : T2Params} {st : Stream} (hraw : par.raw = false) (hlong : ¬ st.bitCount < 15)
    (hsearch : t2Search par st = none) (span : LrcSpan) :
    decodeT2Span span par st = .error .invalidStartSentinel := by
  simp [decodeT2Span, hraw, hlong, hsearch]

/-- Past the length test and locked, the decoder is the scan's search for the window that ends it. -/
theorem decodeT2Span_of_search_some {par : T2Params} {st : Stream} {lock : Nat} (hraw : par.raw = false)
    (hlong : ¬ st.bitCount < 15) (hsearch : t2Search par st = some lock) (span : LrcSpan) :
    decodeT2Span span par st =
      ((List.range ((st.bitCount - lock) / 5)).find? (t2Stops par st lock)).elim
        (.error .invalidEndSentinel) (t2Ending span par st lock) := by
  simp [decodeT2Span, hraw, hlong, hsearch, t2Scan_lock]

/-- The offset that the search answers holds the start sentinel. -/
theorem canon_of_t2Search {par : T2Params} {st : Stream} {lock : Nat} (hsearch : t2Search par st = some lock) :
    canon par st lock = 0x0B#8 := by
  simpa using List.find?_some hsearch

/-- Settles O59: the length test, the search for the lock, and the search for the window that ends the scan. -/
theorem track2Result : Obligations.Track2Result := by
  intro span par st hraw
  by_cases hshort : st.bitCount < 15
  · rw [decodeT2Span_of_short hshort hraw, if_pos hshort]
  rw [if_neg hshort]
  split
  next hnone =>
    have hsearch : t2Search par st = none := hnone
    exact decodeT2Span_of_search_none hraw hshort hsearch span
  next lock hsome =>
    have hsearch : t2Search par st = some lock := hsome
    rw [decodeT2Span_of_search_some hraw hshort hsearch]
    dsimp only
    split
    next hnone =>
      have hfind : (List.range ((st.bitCount - lock) / 5)).find? (t2Stops par st lock) = none := hnone
      rw [hfind]
      rfl
    next b hsome =>
      have hfind : (List.range ((st.bitCount - lock) / 5)).find? (t2Stops par st lock) = some b := hsome
      rw [hfind]
      exact t2Ending_of_stops span (canon_of_t2Search hsearch) (List.find?_some hfind)

end Sys2Proof.Machine
end

section
/-! PROOFS. The result of the Custom decoder on every stream and FormatSpec (44_custom.md R240 to R247). -/

namespace Sys2Proof.Machine

/-! ### What the scan has read when it reaches a window (R246) -/

/-- The value of whole window `k` of the stream. -/
def customValue (f : FormatSpec) (st : Stream) (k : Nat) : Byte := customWindow f st (f.bitsPerChar * k)

/-- Window `k` passes the parity test (R246 line 6). -/
def customGood (f : FormatSpec) (st : Stream) (k : Nat) : Bool :=
  parityOk (customValue f st k) f.bitsPerChar f.parity

/-- Window `k` decides the search for the start sentinel: it is of wrong parity or the start sentinel. -/
def customStarts (f : FormatSpec) (st : Stream) (k : Nat) : Bool :=
  !customGood f st k || customValue f st k == f.startSentinel

/-- Window `k` is the end sentinel of a FormatSpec that has one. -/
def customIsEnd (f : FormatSpec) (st : Stream) (k : Nat) : Bool :=
  f.endValid && customValue f st k == f.endSentinel

/-- Window `k` ends the started scan: it is of wrong parity, the end sentinel, or no character of the width. -/
def customStops (f : FormatSpec) (st : Stream) (k : Nat) : Bool :=
  !customGood f st k || customIsEnd f st k || (customChar f.bitsPerChar (customValue f st k)).isNone

/-- STR at window `k`, of a scan that started before window `p`. -/
def customText (f : FormatSpec) (st : Stream) (p k : Nat) : List Byte :=
  (List.range (k - p)).filterMap fun j => customChar f.bitsPerChar (customValue f st (p + j))

/-- What the scan answers when it ends before window `b` without an error (R246 lines 20 and 21). -/
def customFinish (f : FormatSpec) (st : Stream) (p b : Nat) : DecodeResult :=
  if b = p then .error (.noValidFormat Config.emptyAttempted) else .ok (customText f st p b)

/-- What the started scan answers at a window that ends it. -/
def customEnding (f : FormatSpec) (st : Stream) (p b : Nat) : DecodeResult :=
  if customGood f st b = false then .error (.parityError b)
  else if customIsEnd f st b then nonEmpty (customText f st p b)
  else .error (.invalidCharacter b (customValue f st b).toNat)

/-- What the scan over `n` windows answers, started before window `p`: the ending at the first window from `p` on that
stops it, or the end-of-scan tests. -/
def customBody (f : FormatSpec) (st : Stream) (n p : Nat) : DecodeResult :=
  ((List.range n).find? fun j => decide (p ≤ j) && customStops f st j).elim
    (customEnd f true false (customText f st p n)) (customEnding f st p)

/-- What the scan answers at the window that decides the search for the start sentinel. -/
def customStarting (f : FormatSpec) (st : Stream) (n a : Nat) : DecodeResult :=
  if customGood f st a = false then .error (.parityError a) else customBody f st n (a + 1)

@[simp] theorem customText_self (f : FormatSpec) (st : Stream) (p : Nat) : customText f st p p = [] := by
  simp [customText]

theorem customText_succ (f : FormatSpec) (st : Stream) {p k : Nat} (hpk : p ≤ k) :
    customText f st p (k + 1) = customText f st p k ++ (customChar f.bitsPerChar (customValue f st k)).toList := by
  rw [customText, Nat.succ_sub hpk, List.range_succ, List.filterMap_append, ← customText]
  cases hchar : customChar f.bitsPerChar (customValue f st k) <;> simp [Nat.add_sub_cancel' hpk, hchar]

/-! ### The end of the scan (R245) -/

/-- Once started, only the end sentinel can be missing. -/
theorem customEnd_started (f : FormatSpec) (ended : Bool) (str : List Byte) :
    customEnd f true ended str =
      if f.endValid && !ended then .error .invalidEndSentinel else nonEmpty str := by
  simp [customEnd]

/-- With no window from `p` to `b` that stops the scan, each of them is a character, so the string is empty only where
there is no window at all. -/
theorem nonEmpty_customText {f : FormatSpec} {st : Stream} {p b : Nat} (hpb : p ≤ b)
    (hread : ∀ j < b, p ≤ j → customStops f st j = false) :
    nonEmpty (customText f st p b) = customFinish f st p b := by
  have hempty : customText f st p b = [] ↔ b = p := by
    refine ⟨fun hnil => ?_, fun hbp => by rw [hbp, customText_self]⟩
    by_contra hne
    have hpos : 0 < b - p := by omega
    have hstop := hread p (by omega) le_rfl
    have hchar : customChar f.bitsPerChar (customValue f st p) = none :=
      List.filterMap_eq_nil_iff.1 hnil 0 (List.mem_range.2 hpos)
    simp [customStops, hchar] at hstop
  simp only [nonEmpty, customFinish, hempty]

/-- No window stops the scan: R246 lines 19 to 21 at the last whole window. -/
theorem customBody_of_find_none {f : FormatSpec} {st : Stream} {n p : Nat} (hpn : p ≤ n)
    (hfind : (List.range n).find? (fun j => decide (p ≤ j) && customStops f st j) = none) :
    customBody f st n p = if f.endValid then .error .invalidEndSentinel else customFinish f st p n := by
  have hread : ∀ j < n, p ≤ j → customStops f st j = false := by
    simpa [List.find?_eq_none] using hfind
  rw [customBody, hfind, Option.elim_none, customEnd_started, nonEmpty_customText hpn hread]
  simp

/-- Window `b` is the first that stops the scan. -/
theorem customBody_of_find_some {f : FormatSpec} {st : Stream} {n p b : Nat}
    (hfind : (List.range n).find? (fun j => decide (p ≤ j) && customStops f st j) = some b) :
    customBody f st n p =
      if customGood f st b = false then .error (.parityError b)
      else if customIsEnd f st b then customFinish f st p b
      else .error (.invalidCharacter b (customValue f st b).toNat) := by
  obtain ⟨hb, -, hfirst⟩ := List.find?_range_eq_some.1 hfind
  have hpb : p ≤ b := by
    simp only [Bool.and_eq_true, decide_eq_true_eq] at hb
    exact hb.1
  have hread : ∀ j < b, p ≤ j → customStops f st j = false := by
    intro j hj hpj
    simpa [hpj] using hfirst j hj
  rw [customBody, hfind, Option.elim_some, customEnding, nonEmpty_customText hpb hread]

/-! ### The scan as a search for the window that decides it -/

/-- A FormatSpec without parity accepts every window, so the parity test is `customGood` alone. -/
theorem customScan_parity_iff (f : FormatSpec) (st : Stream) (k : Nat) :
    (f.parity ≠ .none ∧ parityOk (customValue f st k) f.bitsPerChar f.parity = false) ↔
      customGood f st k = false := by
  rw [customGood]
  refine and_iff_right_of_imp fun hbad hnone => ?_
  simp [hnone, parityOk] at hbad

/-- One window before the start: it decides the search, or is skipped. -/
theorem customScan_search (f : FormatSpec) (st : Stream) (n k : Nat) :
    customScan f st (n + 1) (f.bitsPerChar * k) k false [] =
      if customStarts f st k then
        if customGood f st k = false then .error (.parityError k)
        else customScan f st n (f.bitsPerChar * (k + 1)) (k + 1) true []
      else customScan f st n (f.bitsPerChar * (k + 1)) (k + 1) false [] := by
  rw [customScan_succ, ← customValue, customStarts, Nat.mul_succ]
  simp only [customScan_parity_iff]
  by_cases hbad : customGood f st k = false
  · simp [hbad]
  · cases hstart : customValue f st k == f.startSentinel <;> simp [hbad]

/-- One window after the start: the scan ends there, or reads its character and goes on. -/
theorem customScan_read (f : FormatSpec) (st : Stream) (n : Nat) {p k : Nat} (hpk : p ≤ k) :
    customScan f st (n + 1) (f.bitsPerChar * k) k true (customText f st p k) =
      if customStops f st k then customEnding f st p k
      else customScan f st n (f.bitsPerChar * (k + 1)) (k + 1) true (customText f st p (k + 1)) := by
  rw [customScan_succ, ← customValue, customText_succ f st hpk, customStops, customEnding, Nat.mul_succ]
  simp only [customScan_parity_iff]
  by_cases hbad : customGood f st k = false
  · simp [hbad]
  · by_cases hend : f.endValid = true ∧ customValue f st k = f.endSentinel
    · simp [hbad, hend, customIsEnd, customEnd_started]
    · have hnotEnd : customIsEnd f st k = false := by simpa [customIsEnd] using hend
      cases hchar : customChar f.bitsPerChar (customValue f st k) <;> simp [hbad, hend, hnotEnd]

/-- The started scan at window `k` answers the ending at the first window from `k` on that stops it. -/
theorem customScan_started (f : FormatSpec) (st : Stream) (n : Nat) {p k : Nat} (hpk : p ≤ k) :
    customScan f st n (f.bitsPerChar * k) k true (customText f st p k) =
      ((List.range (k + n)).find? fun j => decide (k ≤ j) && customStops f st j).elim
        (customEnd f true false (customText f st p (k + n))) (customEnding f st p) := by
  induction n generalizing k with
  | zero => rw [find_range_from, if_neg (by omega)]; rfl
  | succ n ih =>
    have hmore : k < k + (n + 1) := by omega
    have hwindows : k + 1 + n = k + (n + 1) := by omega
    rw [customScan_read f st n hpk, find_range_from, if_pos hmore, ih (Nat.le_succ_of_le hpk), hwindows]
    cases customStops f st k <;> rfl

/-- Started before window `p` with nothing read, the scan is `customBody`. -/
theorem customScan_eq_body (f : FormatSpec) (st : Stream) (n p : Nat) :
    customScan f st n (f.bitsPerChar * p) p true [] = customBody f st (p + n) p := by
  simpa [customBody] using customScan_started f st n (le_refl p)

/-- With a start sentinel configured, the scan at window `k` answers what the first window from `k` on decides. -/
theorem customScan_notStarted {f : FormatSpec} (hstart : f.startValid = true) (st : Stream) (n k : Nat) :
    customScan f st n (f.bitsPerChar * k) k false [] =
      ((List.range (k + n)).find? fun j => decide (k ≤ j) && customStarts f st j).elim
        (.error .invalidStartSentinel) (customStarting f st (k + n)) := by
  induction n generalizing k with
  | zero => rw [find_range_from, if_neg (by omega)]; simp [customScan, customEnd, hstart]
  | succ n ih =>
    have hmore : k < k + (n + 1) := by omega
    have hwindows : k + 1 + n = k + (n + 1) := by omega
    rw [customScan_search, find_range_from, if_pos hmore, ih, customScan_eq_body, hwindows]
    cases customStarts f st k <;> rfl

/-! ### The whole decoder -/

/-- R240: the width check precedes every window. -/
theorem decodeCustom_of_width {f : FormatSpec} (hwidth : f.bitsPerChar = 0 ∨ 8 < f.bitsPerChar) (st : Stream) :
    decodeCustom f st = .error (.invalidCustomFormat 1) := by
  rw [decodeCustom, if_pos (hwidth.imp_left Nat.lt_one_iff.2)]

/-- Past the width check with a start sentinel configured, the decoder is the search for it. -/
theorem decodeCustom_of_startValid {f : FormatSpec} (hwidth : ¬ (f.bitsPerChar = 0 ∨ 8 < f.bitsPerChar))
    (hstart : f.startValid = true) (st : Stream) :
    decodeCustom f st = ((List.range (st.bitCount / f.bitsPerChar)).find? (customStarts f st)).elim
      (.error .invalidStartSentinel) (customStarting f st (st.bitCount / f.bitsPerChar)) := by
  rw [decodeCustom, if_neg (by omega), hstart]
  simpa [Stream.windowsFrom] using customScan_notStarted hstart st (st.windowsFrom 0 f.bitsPerChar) 0

/-- Past the width check with no start sentinel configured, the scan is started at window 0. -/
theorem decodeCustom_of_not_startValid {f : FormatSpec} (hwidth : ¬ (f.bitsPerChar = 0 ∨ 8 < f.bitsPerChar))
    (hstart : f.startValid = false) (st : Stream) :
    decodeCustom f st = customBody f st (st.bitCount / f.bitsPerChar) 0 := by
  rw [decodeCustom, if_neg (by omega), hstart]
  simpa [Stream.windowsFrom] using customScan_eq_body f st (st.windowsFrom 0 f.bitsPerChar) 0

/-- Settles O60: the width check, the search for the start sentinel, and the search for the window that ends the scan. -/
theorem customResult : Obligations.CustomResult := by
  intro f st width n w good isEnd finish body
  have hbody : ∀ p ≤ n, customBody f st n p = body p := by
    intro p hpn
    simp only [body]
    split
    next hfind => exact customBody_of_find_none hpn hfind
    next b hfind => exact customBody_of_find_some hfind
  by_cases hwidth : width = 0 ∨ 8 < width
  · rw [if_pos hwidth, decodeCustom_of_width hwidth]
  rw [if_neg hwidth]
  by_cases hstart : f.startValid = true
  · rw [if_pos hstart, decodeCustom_of_startValid hwidth hstart]
    split
    next hnone =>
      have hfind : (List.range n).find? (customStarts f st) = none := hnone
      rw [hfind, Option.elim_none]
    next a hsome =>
      have hfind : (List.range n).find? (customStarts f st) = some a := hsome
      have han : a < n := List.mem_range.1 (List.mem_of_find?_eq_some hfind)
      rw [hfind, Option.elim_some, customStarting, hbody (a + 1) han]
      rfl
  · rw [if_neg hstart, decodeCustom_of_not_startValid hwidth (Bool.eq_false_of_not_eq_true hstart)]
    exact hbody 0 n.zero_le

end Sys2Proof.Machine
end

section
/-! PROOFS. The record of a command (45_orchestrator.md R260, R266, R267): its prologue, its three ends with the STATUS
word that each shows, and NOP. -/

namespace Sys2Proof.Machine

/-! ### The STATUS word as a number (10_state.md R24) -/

/-- A field put above the bits of a smaller number adds its weight. -/
theorem toNat_fieldAt_or {n k m : Nat} (x : BitVec n) {y : Word} (hy : y.toNat = m) (hm : m < 2 ^ k)
    (hfit : n + k ≤ Config.xlen) : (fieldAt k x ||| y).toNat = 2 ^ k * x.toNat + m := by
  have hshift : x.toNat * 2 ^ k < 2 ^ Config.xlen := calc
    x.toNat * 2 ^ k < 2 ^ n * 2 ^ k := Nat.mul_lt_mul_of_pos_right x.isLt (Nat.two_pow_pos k)
    _ = 2 ^ (n + k) := (Nat.pow_add 2 n k).symm
    _ ≤ 2 ^ Config.xlen := Nat.pow_le_pow_right (by decide) hfit
  have hfield : (fieldAt k x).toNat = 2 ^ k * x.toNat := by
    rw [fieldAt, BitVec.toNat_shiftLeft, BitVec.toNat_setWidth_of_le (by omega), Nat.shiftLeft_eq,
      Nat.mod_eq_of_lt hshift, Nat.mul_comm]
  rw [BitVec.toNat_or, hfield, hy, Nat.two_pow_add_eq_or_of_lt hm]

/-- STATUS is the sum of its fields, each at its own weight. -/
theorem State.status_toNat (s : State) :
    s.status.toNat = s.busy.toNat + 2 * s.done.toNat + 4 * s.ok.toNat + 8 * s.rej.toNat + 16 * s.sempty.toNat +
      256 * s.rejCode.toNat := by
  have hbusy : (fieldAt 0 (BitVec.ofBool s.busy)).toNat = (BitVec.ofBool s.busy).toNat := by cases s.busy <;> rfl
  have hdone := toNat_fieldAt_or (k := 1) (BitVec.ofBool s.done) hbusy (by omega) (by decide)
  have hok := toNat_fieldAt_or (k := 2) (BitVec.ofBool s.ok) hdone (by omega) (by decide)
  have hrej := toNat_fieldAt_or (k := 3) (BitVec.ofBool s.rej) hok (by omega) (by decide)
  have hsempty := toNat_fieldAt_or (k := 4) (BitVec.ofBool s.sempty) hrej (by omega) (by decide)
  have hword := toNat_fieldAt_or (k := 8) s.rejCode hsempty (by omega) (by decide)
  simp only [State.status, BitVec.or_assoc, hword, BitVec.toNat_ofBool]
  omega

/-- SEMPTY at its place in STATUS. -/
theorem State.sempty_weight (s : State) : (if s.sbits = 0 then 0x10 else 0) = 16 * s.sempty.toNat := by
  unfold State.sempty
  split
  next hempty => rw [hempty]; rfl
  next hbits => rw [beq_eq_false_iff_ne.2 hbits]; rfl

/-! ### The epilogues (R267) -/

/-- STATUS after a success: DONE and OK. -/
theorem State.endOk_status (s : State) (r : Word) :
    (s.endOk r).status.toNat = 0x06 + (if s.sbits = 0 then 0x10 else 0) := by
  rw [State.status_toNat, State.sempty_weight]
  simp

/-- STATUS after an error: DONE alone. -/
theorem State.endError_status (s : State) (e : Err) :
    (s.endError e).status.toNat = 0x02 + (if s.sbits = 0 then 0x10 else 0) := by
  rw [State.status_toNat, State.sempty_weight]
  simp

/-- STATUS after a refusal: DONE, REJ and the code of the refusal. -/
theorem State.endRefused_status (s : State) (c : BitVec 8) :
    (s.endRefused c).status.toNat = 0x0A + (if s.sbits = 0 then 0x10 else 0) + 256 * c.toNat := by
  rw [State.status_toNat, State.sempty_weight]
  simp

/-- Settles O8: what each epilogue writes is its definition, and STATUS follows from the fields written. -/
theorem epilogueTable : Obligations.EpilogueTable := by
  intro s r e c
  exact ⟨rfl, rfl, rfl, s.endOk_status r, s.endError_status e, s.endRefused_status c⟩

/-! ### The prologue (R266) -/

/-- An idle block takes a write to CMD as a command. -/
theorem State.hostAccess_write_cmd {s : State} (hidle : s.busy = false) (w : Word) :
    s.hostAccess (.write 0x000 w) = s.acceptCommand w := by
  rw [State.hostAccess_write_of_idle hidle]
  rfl

/-- STATUS while an accepted command waits for its checks: BUSY alone. -/
theorem State.acceptCommand_status (s : State) (w : Word) :
    (s.acceptCommand w).status.toNat = 0x01 + (if s.sbits = 0 then 0x10 else 0) := by
  rw [State.status_toNat, State.sempty_weight]
  simp

/-- Settles O10: the write is `acceptCommand`, the prologue with BUSY set. -/
theorem cmdWriteRunsPrologue : Obligations.CmdWriteRunsPrologue := by
  intro s w hidle
  exact ⟨s.acceptCommand w, State.hostAccess_write_cmd hidle w, rfl, s.acceptCommand_status w⟩

/-! ### NOP (R260) -/

theorem exec_nop (s : State) : exec .nop s = .next (s.endOk 0) := rfl

/-- Settles O30: NOP is the success epilogue and nothing else. -/
theorem nopClearsRecord : Obligations.NopClearsRecord :=
  ⟨rfl, fun s => ⟨s.endOk 0, exec_nop s, rfl, s.endOk_status 0⟩⟩

end Sys2Proof.Machine
end

section
/-! PROOFS. The two instruction spaces (30_encoding.md R90 to R104): decode and encode are inverse to each other, and the
words that name an instruction. -/

namespace Sys2Proof.Machine

/-! ### From an instruction to its word and back -/

/-- The word of a Custom decodes to the FormatSpec that its own fields spell. -/
theorem decodeDescriptor_encode_custom (f : FormatSpec) :
    decodeDescriptor f.encode = .ok (.custom (formatSpecOf f.encode f.parity)) := by
  obtain ⟨htag, hzero, hpar⟩ := Laws.WordIsLegal.encode_custom_fields f
  rw [decodeDescriptor, htag, if_pos (by decide), decodeCustomWord, hzero, if_neg (by decide), hpar,
    Laws.WordIsLegal.parityOfCode_code]

/-- The fields of a Custom's word that are read as numbers (R98, R99). -/
theorem encode_custom_numbers (f : FormatSpec) :
    f.encode.extractLsb' 4 4 = BitVec.ofNat 4 f.bitsPerChar ∧ f.encode.extractLsb' 16 8 = f.startSentinel ∧
      f.encode.extractLsb' 24 8 = f.endSentinel := by
  unfold FormatSpec.encode fieldAt
  refine ⟨?_, ?_, ?_⟩ <;> apply BitVec.eq_of_getLsbD_eq <;> intro i hi <;> interval_cases i <;> simp

/-- The fields of a Custom's word that are single bits (R98). -/
theorem encode_custom_flags (f : FormatSpec) :
    f.encode.getLsbD 8 = f.lsbFirst ∧ f.encode.getLsbD 11 = f.inverted ∧
      f.encode.getLsbD 12 = f.startValid ∧ f.encode.getLsbD 13 = f.endValid := by
  unfold FormatSpec.encode fieldAt
  simp

/-- A width below 16 keeps its value in its four bits (R99). -/
theorem formatSpecOf_encode {f : FormatSpec} (hf : f.wellFormed = true) : formatSpecOf f.encode f.parity = f := by
  have hwidth : f.bitsPerChar < 16 := by simpa [FormatSpec.wellFormed] using hf
  obtain ⟨hbpc, hss, hes⟩ := encode_custom_numbers f
  obtain ⟨hlsb, hinv, hsv, hev⟩ := encode_custom_flags f
  rw [formatSpecOf, hbpc, hss, hes, hlsb, hinv, hsv, hev, BitVec.toNat_ofNat, Nat.mod_eq_of_lt hwidth]

theorem decodeCommand_encode {i : Instr} (hi : i.isCommand = true) : decodeCommand (encode i) = .ok i := by
  cases i <;> cases hi <;> rfl

theorem decodeDescriptor_encode {i : Instr} (hi : i.isCommand = false) (hwf : i.wellFormed = true) :
    decodeDescriptor (encode i) = .ok i := by
  cases i
  case custom f => rw [encode, decodeDescriptor_encode_custom, formatSpecOf_encode hwf]
  all_goals cases hi <;> rfl

/-- Settles O1: each space's decoder on the words of its own instructions. -/
theorem encodeThenDecode : Obligations.EncodeThenDecode :=
  fun _ hwf => ⟨decodeCommand_encode, fun hi => decodeDescriptor_encode hi hwf⟩

/-! ### From a word to its instruction and back -/

/-- A word whose bits above `k` are zero is its low field. -/
theorem setWidth_extractLsb' {w : Word} {k n : Nat} (h : w.extractLsb' k n = 0) (hfit : k + n = Config.xlen) :
    (w.extractLsb' 0 k).setWidth Config.xlen = w := by
  have hlt : w.toNat < 2 ^ k := (extractLsb'_eq_zero_iff w k n hfit).1 h
  apply BitVec.eq_of_toNat_eq
  rw [BitVec.toNat_setWidth, BitVec.extractLsb'_toNat, Nat.shiftRight_zero, Nat.mod_eq_of_lt hlt,
    Nat.mod_eq_of_lt w.isLt]

/-- The rows of R91, read from the opcode. -/
theorem encode_commandOfOpcode {opc : Byte} {i : Instr} (h : commandOfOpcode opc = some i) :
    i.isCommand = true ∧ i.wellFormed = true ∧ encode i = opc.setWidth Config.xlen := by
  unfold commandOfOpcode at h
  split at h <;> cases h <;> decide

/-- The rows of R100, read from the tag. -/
theorem encode_profileOfTag {tag : BitVec 4} {i : Instr} (h : profileOfTag tag = some i) :
    i.isCommand = false ∧ i.wellFormed = true ∧ encode i = tag.setWidth Config.xlen := by
  unfold profileOfTag at h
  split at h <;> cases h <;> decide

theorem code_of_parityOfCode {p : BitVec 2} {m : ParityMode} (h : parityOfCode p = some m) : m.code = p := by
  unfold parityOfCode at h
  split at h <;> cases h <;> rfl

/-- The FormatSpec of a word has a width of four bits, which some word can hold (R99). -/
theorem formatSpecOf_wellFormed (d : Word) (par : ParityMode) : (formatSpecOf d par).wellFormed = true := by
  have hlt : (d.extractLsb' 4 4).toNat < 16 := (d.extractLsb' 4 4).isLt
  simpa [FormatSpec.wellFormed, formatSpecOf] using hlt

/-- The fields of a DESC-C word, put at their places, make up the word. -/
theorem encode_formatSpecOf {d : Word} {par : ParityMode} (htag : d.extractLsb' 0 4 = 10)
    (hzero : d.extractLsb' 14 2 = 0) (hpar : d.extractLsb' 9 2 = par.code) : (formatSpecOf d par).encode = d := by
  have hbit : ∀ {k n : Nat} {x : BitVec n}, d.extractLsb' k n = x → ∀ j < n, d.getLsbD (k + j) = x.getLsbD j := by
    rintro k n x rfl j hj
    rw [BitVec.getLsbD_extractLsb', decide_eq_true hj, Bool.true_and]
  have htag0 : d[0] = false := by simpa using hbit htag 0 (by decide)
  have htag1 : d[1] = true := by simpa using hbit htag 1 (by decide)
  have htag2 : d[2] = false := by simpa using hbit htag 2 (by decide)
  have htag3 : d[3] = true := by simpa using hbit htag 3 (by decide)
  have hzero0 : d[14] = false := by simpa using hbit hzero 0 (by decide)
  have hzero1 : d[15] = false := by simpa using hbit hzero 1 (by decide)
  unfold FormatSpec.encode formatSpecOf fieldAt
  dsimp only
  rw [BitVec.ofNat_toNat, BitVec.setWidth_eq, ← hpar]
  apply BitVec.eq_of_getLsbD_eq
  intro i hi
  interval_cases i <;> simp [htag0, htag1, htag2, htag3, hzero0, hzero1]

/-- The two ways in which a word is a legal descriptor (R104): a named profile's tag alone, or a Custom. -/
theorem decodeDescriptor_eq_ok_iff {d : Word} {i : Instr} :
    decodeDescriptor d = .ok i ↔
      (d.extractLsb' 4 28 = 0 ∧ profileOfTag (d.extractLsb' 0 4) = some i) ∨
      (d.extractLsb' 0 4 = 10 ∧ d.extractLsb' 14 2 = 0 ∧
        ∃ par, parityOfCode (d.extractLsb' 9 2) = some par ∧ i = .custom (formatSpecOf d par)) := by
  unfold decodeDescriptor
  by_cases htag : d.extractLsb' 0 4 = 10#4
  · rw [if_pos (by exact htag), decodeCustomWord]
    by_cases hzero : d.extractLsb' 14 2 = 0#2
    · cases hpar : parityOfCode (d.extractLsb' 9 2) <;> simp [htag, hzero, profileOfTag, eq_comm]
    · simp [htag, hzero, profileOfTag]
  · rw [if_neg (by exact htag)]
    cases hprofile : profileOfTag (d.extractLsb' 0 4) with
    | none => simp [htag]
    | some j => by_cases hhigh : d.extractLsb' 4 28 = 0#28 <;> simp [htag, hhigh]

theorem decodeCommand_eq_ok_iff {c : Word} {i : Instr} :
    decodeCommand c = .ok i ↔ c.extractLsb' 8 24 = 0 ∧ commandOfOpcode (c.extractLsb' 0 8) = some i := by
  unfold decodeCommand
  by_cases hhigh : c.extractLsb' 8 24 = 0#24
  · cases commandOfOpcode (c.extractLsb' 0 8) <;> simp [hhigh]
  · simp [hhigh]

theorem encode_decodeCommand {w : Word} {i : Instr} (h : decodeCommand w = .ok i) :
    i.isCommand = true ∧ i.wellFormed = true ∧ encode i = w := by
  obtain ⟨hhigh, hopc⟩ := decodeCommand_eq_ok_iff.1 h
  obtain ⟨hcommand, hwf, hword⟩ := encode_commandOfOpcode hopc
  exact ⟨hcommand, hwf, hword.trans (setWidth_extractLsb' hhigh rfl)⟩

theorem encode_decodeDescriptor {w : Word} {i : Instr} (h : decodeDescriptor w = .ok i) :
    i.isCommand = false ∧ i.wellFormed = true ∧ encode i = w := by
  obtain ⟨hhigh, hprofile⟩ | ⟨htag, hzero, par, hpar, rfl⟩ := decodeDescriptor_eq_ok_iff.1 h
  · obtain ⟨hdesc, hwf, hword⟩ := encode_profileOfTag hprofile
    exact ⟨hdesc, hwf, hword.trans (setWidth_extractLsb' hhigh rfl)⟩
  · exact ⟨rfl, formatSpecOf_wellFormed w par, encode_formatSpecOf htag hzero (code_of_parityOfCode hpar).symm⟩

/-- Settles O2: in each space the word is put together again from what it decodes to. -/
theorem decodeThenEncode : Obligations.DecodeThenEncode :=
  fun _ _ => ⟨encode_decodeCommand, encode_decodeDescriptor⟩

/-! ### Which words name an instruction -/

/-- A tag names a profile exactly below 10 (R100). -/
theorem profileOfTag_isSome_iff (tag : BitVec 4) : (profileOfTag tag).isSome = true ↔ tag.toNat < 10 := by
  revert tag; decide

/-- Code 3 alone names no parity mode (R92, R98). -/
theorem parityOfCode_isSome_iff (p : BitVec 2) : (parityOfCode p).isSome = true ↔ p.toNat ≠ 3 := by
  revert p; decide

theorem legalDescriptor_iff {d : Word} : legalDescriptor d = true ↔ ∃ i, decodeDescriptor d = .ok i := by
  unfold legalDescriptor
  cases decodeDescriptor d <;> simp

/-- A field of a word as arithmetic on its number. -/
theorem toNat_extractLsb' (w : Word) (k n : Nat) : (w.extractLsb' k n).toNat = w.toNat / 2 ^ k % 2 ^ n := by
  rw [BitVec.extractLsb'_toNat, Nat.shiftRight_eq_div_pow]

/-- Legality by the fields alone (R104). -/
theorem legalDescriptor_iff_fields {d : Word} :
    legalDescriptor d = true ↔
      (d.extractLsb' 4 28 = 0 ∧ (profileOfTag (d.extractLsb' 0 4)).isSome = true) ∨
      (d.extractLsb' 0 4 = 10 ∧ d.extractLsb' 14 2 = 0 ∧ (parityOfCode (d.extractLsb' 9 2)).isSome = true) := by
  simp only [legalDescriptor_iff, decodeDescriptor_eq_ok_iff, exists_or, exists_and_left, Option.isSome_iff_exists]
  rw [exists_comm]
  simp only [exists_and_left, exists_eq, and_true]

/-- Settles O4: the two ways to be legal, each field read as a number. -/
theorem legalDescriptorFields : Obligations.LegalDescriptorFields := by
  intro d
  have htag : d.extractLsb' 0 4 = 10 ↔ d.toNat % 16 = 10 := by
    rw [← BitVec.toNat_inj, toNat_extractLsb', pow_zero, Nat.div_one]; rfl
  have hzero : d.extractLsb' 14 2 = 0 ↔ d.toNat / 2 ^ 14 % 4 = 0 := by
    rw [← BitVec.toNat_inj, toNat_extractLsb']; rfl
  rw [legalDescriptor_iff_fields, profileOfTag_isSome_iff, parityOfCode_isSome_iff, toNat_extractLsb', toNat_extractLsb',
    htag, hzero, extractLsb'_eq_zero_iff d 4 28 rfl]
  omega

/-- Settles O5: a word that decodes is the word of one of the twelve commands. -/
theorem illegalCommandWordRefused : Obligations.IllegalCommandWordRefused := by
  intro s c hphase hc
  cases hd : decodeCommand c with
  | error e => exact engineStep_command_error hphase hd
  | ok i =>
    obtain ⟨hcommand, -, rfl⟩ := encode_decodeCommand hd
    refine absurd ?_ hc
    cases i <;> cases hcommand <;> decide

/-- Settles O3: each word's fields, evaluated. -/
theorem specWordsDecode : Obligations.SpecWordsDecode := by
  unfold Obligations.SpecWordsDecode
  decide

end Sys2Proof.Machine
end

section
/-! PROOFS. What it means that a run of windows holds given characters, and which window a search over them answers, for the
frames of the three decoders. -/

namespace Sys2Proof.Machine

/-- From index `o` on, `g` takes the values of the list. -/
def Reads (g : Nat → Byte) (o : Nat) (l : List Byte) : Prop := ∀ k (h : k < l.length), g (o + k) = l[k]

theorem reads_append {g : Nat → Byte} {o : Nat} {l m : List Byte} :
    Reads g o (l ++ m) ↔ Reads g o l ∧ Reads g (o + l.length) m := by
  constructor
  · refine fun h => ⟨fun k hk => ?_, fun k hk => ?_⟩
    · rw [h k (by rw [List.length_append]; omega), List.getElem_append_left hk]
    · rw [Nat.add_assoc, h (l.length + k) (by rw [List.length_append]; omega),
        List.getElem_append_right (Nat.le_add_right _ _)]
      simp only [Nat.add_sub_cancel_left]
  · rintro ⟨hl, hm⟩ k hk
    rw [List.length_append] at hk
    by_cases hkl : k < l.length
    · rw [hl k hkl, List.getElem_append_left hkl]
    · have hread := hm (k - l.length) (by omega)
      rw [List.getElem_append_right (by omega), ← hread]
      congr 1
      omega

theorem reads_singleton {g : Nat → Byte} {o : Nat} {x : Byte} : Reads g o [x] ↔ g o = x :=
  ⟨fun h => h 0 Nat.one_pos, fun h k hk => by simpa [Nat.lt_one_iff.1 hk] using h⟩

/-- Every value read is one of the list. -/
theorem Reads.mem {g : Nat → Byte} {o k : Nat} {l : List Byte} (h : Reads g o l) (hlo : o ≤ k) (hhi : k < o + l.length) :
    g k ∈ l := by
  have hread := h (k - o) (by omega)
  rw [Nat.add_sub_cancel' hlo] at hread
  exact hread ▸ List.getElem_mem _

/-- The values read, in order, are the list. -/
theorem Reads.map_range {g : Nat → Byte} {o n : Nat} {l : List Byte} (h : Reads g o l) (hn : n = l.length) :
    ((List.range n).map fun k => g (o + k)) = l := by
  subst hn
  exact List.ext_getElem (by simp) fun k hk hk' => by simpa using h k hk'

/-- A search from index `p` on answers the first index from there that passes the test. -/
theorem find_range_from_eq_some {n p k : Nat} {test : Nat → Bool} (hpk : p ≤ k) (hkn : k < n) (hk : test k = true)
    (hbefore : ∀ j < k, p ≤ j → test j = false) :
    (List.range n).find? (fun j => decide (p ≤ j) && test j) = some k := by
  rw [List.find?_range_eq_some]
  refine ⟨by simp [hpk, hk], List.mem_range.2 hkn, fun j hj => ?_⟩
  by_cases hpj : p ≤ j
  · simp [hbefore j hj hpj]
  · simp [hpj]

theorem find_range_eq_some {n k : Nat} {test : Nat → Bool} (hkn : k < n) (hk : test k = true)
    (hbefore : ∀ j < k, test j = false) : (List.range n).find? test = some k := by
  simpa using find_range_from_eq_some k.zero_le hkn hk fun j hj _ => hbefore j hj

end Sys2Proof.Machine
end

section
/-! PROOFS. The Track1 decoder (42_track1.md R181): its result on every stream, the round trip of a frame, and inversion. -/

namespace Sys2Proof.Machine

/-! ### What the scan has read when it reaches a window -/

/-- The value of window `k`. -/
def t1Value (inv : Bool) (st : Stream) (k : Nat) : Byte := t1Window inv st (7 * k)

/-- Window `k` has the parity of a character. -/
def t1Odd (inv : Bool) (st : Stream) (k : Nat) : Bool := parityOk (t1Value inv st k) 7 .odd

/-- Window `k` decides the search for the start sentinel: it is of wrong parity or has the sentinel's data. -/
def t1Starts (inv : Bool) (st : Stream) (k : Nat) : Bool := !t1Odd inv st k || t1Data (t1Value inv st k) == 0x05#8

/-- Window `k` ends the started scan: it is of wrong parity or has the end sentinel's data. -/
def t1Stops (inv : Bool) (st : Stream) (k : Nat) : Bool := !t1Odd inv st k || t1Data (t1Value inv st k) == 0x1F#8

/-- CHARS at window `k`, of a scan that found the start sentinel in window `a`. -/
def t1Chars (inv : Bool) (st : Stream) (a k : Nat) : List Byte :=
  (List.range (k - a)).map fun j => t1Value inv st (a + j)

/-- STR at window `k`, of a scan that found the start sentinel in window `a`. -/
def t1Text (inv : Bool) (st : Stream) (a k : Nat) : List Byte :=
  (List.range (k - a - 1)).map fun j => 0x20#8 + t1Data (t1Value inv st (a + 1 + j))

/-- What the started scan answers at a window that ends it (R181 lines 6 and 13 to 19). -/
def t1Ending (inv : Bool) (st : Stream) (a b : Nat) : DecodeResult :=
  if t1Odd inv st b = false then .error (.parityError b)
  else t1Checksum inv st (7 * (b + 1)) (t1Chars inv st a (b + 1)) (t1Text inv st a b)

/-- What the scan over `n` windows answers, started in window `a`. -/
def t1Body (inv : Bool) (st : Stream) (n a : Nat) : DecodeResult :=
  ((List.range n).find? fun j => decide (a + 1 ≤ j) && t1Stops inv st j).elim
    (.error .invalidEndSentinel) (t1Ending inv st a)

/-- What the scan answers at the window that decides the search for the start sentinel. -/
def t1Starting (inv : Bool) (st : Stream) (n a : Nat) : DecodeResult :=
  if t1Odd inv st a = false then .error (.parityError a) else t1Body inv st n a

theorem t1Chars_start (inv : Bool) (st : Stream) (a : Nat) : t1Chars inv st a (a + 1) = [t1Value inv st a] := by
  simp [t1Chars]

theorem t1Text_start (inv : Bool) (st : Stream) (a : Nat) : t1Text inv st a (a + 1) = [] := by
  simp [t1Text]

theorem t1Chars_succ (inv : Bool) (st : Stream) {a k : Nat} (hak : a ≤ k) :
    t1Chars inv st a (k + 1) = t1Chars inv st a k ++ [t1Value inv st k] := by
  rw [t1Chars, Nat.succ_sub hak, List.range_succ, List.map_append, List.map_singleton, Nat.add_sub_cancel' hak, t1Chars]

theorem t1Text_succ (inv : Bool) (st : Stream) {a k : Nat} (hak : a < k) :
    t1Text inv st a (k + 1) = t1Text inv st a k ++ [0x20#8 + t1Data (t1Value inv st k)] := by
  have hlen : k + 1 - a - 1 = (k - a - 1) + 1 := by omega
  have hlast : a + 1 + (k - a - 1) = k := by omega
  rw [t1Text, hlen, List.range_succ, List.map_append, List.map_singleton, hlast, t1Text]

/-- The string is empty only where no data character has been read. -/
theorem nonEmpty_t1Text (inv : Bool) (st : Stream) {a b : Nat} (hab : a < b) :
    nonEmpty (t1Text inv st a b) =
      if b = a + 1 then .error (.noValidFormat Config.emptyAttempted) else .ok (t1Text inv st a b) := by
  have hempty : t1Text inv st a b = [] ↔ b = a + 1 := by
    rw [t1Text, List.map_eq_nil_iff, List.range_eq_nil]
    omega
  simp only [nonEmpty, hempty]

/-! ### The scan as a search for the window that decides it -/

/-- One window before the start: it decides the search, or is skipped. -/
theorem t1Scan_search (inv : Bool) (st : Stream) (n k : Nat) :
    t1Scan inv st (n + 1) (7 * k) k false [] [] =
      if t1Starts inv st k then
        if t1Odd inv st k = false then .error (.parityError k)
        else t1Scan inv st n (7 * (k + 1)) (k + 1) true (t1Chars inv st k (k + 1)) (t1Text inv st k (k + 1))
      else t1Scan inv st n (7 * (k + 1)) (k + 1) false [] [] := by
  rw [t1Scan_succ, t1Chars_start, t1Text_start, t1Starts, Nat.mul_succ, ← t1Value, ← t1Odd]
  by_cases hbad : t1Odd inv st k = false
  · simp [hbad]
  · by_cases hstart : t1Data (t1Value inv st k) = 0x05#8 <;> simp [hbad, hstart]

/-- One window after the start: the scan ends there, or reads its character and goes on. -/
theorem t1Scan_read (inv : Bool) (st : Stream) (n : Nat) {a k : Nat} (hak : a < k) :
    t1Scan inv st (n + 1) (7 * k) k true (t1Chars inv st a k) (t1Text inv st a k) =
      if t1Stops inv st k then t1Ending inv st a k
      else t1Scan inv st n (7 * (k + 1)) (k + 1) true (t1Chars inv st a (k + 1)) (t1Text inv st a (k + 1)) := by
  rw [t1Scan_succ, if_neg (t1Data_range _), t1Ending, t1Chars_succ inv st hak.le, t1Text_succ inv st hak, t1Stops,
    Nat.mul_succ, ← t1Value, ← t1Odd]
  by_cases hbad : t1Odd inv st k = false
  · simp [hbad]
  · by_cases hend : t1Data (t1Value inv st k) = 0x1F#8 <;> simp [hbad, hend]

/-- The started scan at window `k` answers the ending at the first window from `k` on that stops it. -/
theorem t1Scan_started (inv : Bool) (st : Stream) (n : Nat) {a k : Nat} (hak : a < k) :
    t1Scan inv st n (7 * k) k true (t1Chars inv st a k) (t1Text inv st a k) =
      ((List.range (k + n)).find? fun j => decide (k ≤ j) && t1Stops inv st j).elim
        (.error .invalidEndSentinel) (t1Ending inv st a) := by
  induction n generalizing k with
  | zero => rw [find_range_from, if_neg (by omega)]; rfl
  | succ n ih =>
    have hmore : k < k + (n + 1) := by omega
    have hwindows : k + 1 + n = k + (n + 1) := by omega
    rw [t1Scan_read inv st n hak, find_range_from, if_pos hmore, ih (Nat.lt_succ_of_lt hak), hwindows]
    cases t1Stops inv st k <;> rfl

/-- The scan at window `k`, not started, answers what the first window from `k` on decides. -/
theorem t1Scan_notStarted (inv : Bool) (st : Stream) (n k : Nat) :
    t1Scan inv st n (7 * k) k false [] [] =
      ((List.range (k + n)).find? fun j => decide (k ≤ j) && t1Starts inv st j).elim
        (.error .invalidStartSentinel) (t1Starting inv st (k + n)) := by
  induction n generalizing k with
  | zero => rw [find_range_from, if_neg (by omega)]; rfl
  | succ n ih =>
    have hmore : k < k + (n + 1) := by omega
    have hwindows : k + 1 + n = k + (n + 1) := by omega
    rw [t1Scan_search, find_range_from, if_pos hmore, ih, t1Scan_started inv st n k.lt_succ_self, hwindows]
    cases t1Starts inv st k <;> rfl

/-! ### The whole decoder -/

/-- Past the length test, the decoder is the search for the start sentinel. -/
theorem decodeT1_of_long {st : Stream} (hlong : ¬ st.bitCount < 21) (inv : Bool) :
    decodeT1 inv st = ((List.range (st.bitCount / 7)).find? (t1Starts inv st)).elim
      (.error .invalidStartSentinel) (t1Starting inv st (st.bitCount / 7)) := by
  rw [decodeT1, if_neg hlong]
  simpa [Stream.windowsFrom] using t1Scan_notStarted inv st (st.windowsFrom 0 7) 0

/-- The answer at a window that ends the started scan: its parity, then the checksum window, then the data. -/
theorem t1Ending_eq (inv : Bool) (st : Stream) {a b : Nat} (hab : a < b) :
    t1Ending inv st a b =
      if t1Odd inv st b = false then .error (.parityError b)
      else if 7 * (b + 1) + 7 > st.bitCount then .error (.bitstreamTooShort st.bitCount (7 * (b + 1) + 7))
      else if t1Value inv st (b + 1) ≠ lrcT1 (t1Chars inv st a (b + 1)) then .error .checksumFailed
      else if b = a + 1 then .error (.noValidFormat Config.emptyAttempted)
      else .ok (t1Text inv st a b) := by
  rw [t1Ending, t1Checksum, nonEmpty_t1Text inv st hab]
  rfl

/-- Settles O58: the length test, the search for the start sentinel, and the search for the window that ends the scan. -/
theorem track1Result : Obligations.Track1Result := by
  intro inv st n w odd
  by_cases hshort : st.bitCount < 21
  · rw [if_pos hshort, decodeT1_of_short hshort]
  rw [if_neg hshort, decodeT1_of_long hshort]
  split
  next hnone =>
    have hfind : (List.range n).find? (t1Starts inv st) = none := hnone
    rw [hfind, Option.elim_none]
  next a hsome =>
    have hfind : (List.range n).find? (t1Starts inv st) = some a := hsome
    rw [hfind, Option.elim_some, t1Starting, t1Body]
    refine if_congr Iff.rfl rfl ?_
    split
    next hnone =>
      have hfind : (List.range n).find? (fun j => decide (a + 1 ≤ j) && t1Stops inv st j) = none := hnone
      rw [hfind, Option.elim_none]
    next b hsome =>
      have hfind : (List.range n).find? (fun j => decide (a + 1 ≤ j) && t1Stops inv st j) = some b := hsome
      have hab : a + 1 ≤ b := by
        have hstop := List.find?_some hfind
        simp only [Bool.and_eq_true, decide_eq_true_eq] at hstop
        exact hstop.1
      rw [hfind, Option.elim_some, t1Ending_eq inv st hab]
      rfl

/-! ### The round trip of a frame (95_test_vectors.md S-4) -/

theorem t1Starts_of_data {inv : Bool} {st : Stream} {k : Nat} (h : t1Data (t1Value inv st k) = 0x05#8) :
    t1Starts inv st k = true := by
  simp [t1Starts, h]

theorem t1Stops_of_data {inv : Bool} {st : Stream} {k : Nat} (h : t1Data (t1Value inv st k) = 0x1F#8) :
    t1Stops inv st k = true := by
  simp [t1Stops, h]

theorem t1Starts_eq_false {inv : Bool} {st : Stream} {k : Nat} (hodd : t1Odd inv st k = true)
    (hdata : t1Data (t1Value inv st k) ≠ 0x05#8) : t1Starts inv st k = false := by
  simp [t1Starts, hodd, hdata]

theorem t1Stops_eq_false {inv : Bool} {st : Stream} {k : Nat} (hodd : t1Odd inv st k = true)
    (hdata : t1Data (t1Value inv st k) ≠ 0x1F#8) : t1Stops inv st k = false := by
  simp [t1Stops, hodd, hdata]

/-- A start sentinel in window `a` and an end sentinel in window `b`, each the first of its kind: the answer is the
ending at `b`. -/
theorem decodeT1_of_sentinels {inv : Bool} {st : Stream} {a b : Nat} (hab : a < b) (hb : 7 * (b + 1) + 7 ≤ st.bitCount)
    (hstart : t1Starts inv st a = true) (hskip : ∀ j < a, t1Starts inv st j = false) (hodd : t1Odd inv st a = true)
    (hstop : t1Stops inv st b = true) (hread : ∀ j < b, a + 1 ≤ j → t1Stops inv st j = false) :
    decodeT1 inv st = t1Ending inv st a b := by
  have hwindows : b < st.bitCount / 7 := by omega
  rw [decodeT1_of_long (by omega), find_range_eq_some (hab.trans hwindows) hstart hskip, Option.elim_some, t1Starting,
    hodd, if_neg (by decide), t1Body, find_range_from_eq_some hab hwindows hstop hread, Option.elim_some]

/-- Settles O33: the frame's start sentinel decides the first search and its end sentinel the second, and what has been
read between them is the frame's characters. -/
theorem track1RoundTrip : Obligations.Track1RoundTrip := by
  intro inv st filler data ss es hfiller hssOdd hssData hne hdata hesOdd hesData frame hfit hframe
  have hreads : Reads (t1Value inv st) 0 frame := fun k hk => by rw [Nat.zero_add]; exact hframe k hk
  have hlength : frame.length = filler.length + data.length + 3 := by
    simp only [frame, List.length_append, List.length_singleton]; omega
  have hpos : 0 < data.length := List.length_pos_iff.2 hne
  obtain ⟨a, ha⟩ : ∃ a, a = filler.length := ⟨_, rfl⟩
  obtain ⟨b, hb⟩ : ∃ b, b = a + 1 + data.length := ⟨_, rfl⟩
  simp only [frame, reads_append, reads_singleton, List.length_append, List.length_singleton, Nat.zero_add,
    ← ha, ← Nat.add_assoc, ← hb] at hreads
  obtain ⟨⟨⟨⟨hfillers, hss⟩, hdatas⟩, hes⟩, hcheck⟩ := hreads
  have hchars : t1Chars inv st a (b + 1) = [ss] ++ data ++ [es] := by
    refine Reads.map_range ?_ (by simp; omega)
    simp only [reads_append, reads_singleton, List.length_append, List.length_singleton, ← Nat.add_assoc, ← hb]
    exact ⟨⟨hss, hdatas⟩, hes⟩
  have htext : t1Text inv st a b = data.map fun c => 0x20 + (c &&& 0x3F) := by
    have hmap := congrArg (List.map fun c => 0x20#8 + t1Data c) (hdatas.map_range (n := b - a - 1) (by omega))
    rw [List.map_map] at hmap
    exact hmap
  rw [decodeT1_of_sentinels (a := a) (b := b) (by omega) (by omega), t1Ending_eq inv st (by omega),
    if_neg (by simp [t1Odd, hes, hesOdd]), if_neg (by omega), if_neg (by rw [hchars, hcheck]; simp), if_neg (by omega),
    htext]
  · exact t1Starts_of_data (hss ▸ hssData)
  · intro j hj
    obtain ⟨hodd, hdatum⟩ := hfiller _ (hfillers.mem j.zero_le (by omega))
    exact t1Starts_eq_false hodd hdatum
  · rw [t1Odd, hss]; exact hssOdd
  · exact t1Stops_of_data (hes ▸ hesData)
  · intro j hj haj
    obtain ⟨hodd, hdatum⟩ := hdata _ (hdatas.mem haj (by omega))
    exact t1Stops_eq_false hodd hdatum

/-! ### What the answer depends on -/

/-- Where the whole windows at multiples of 7 agree, the scans agree, whatever the polarities. -/
theorem t1Scan_congr {inv inv' : Bool} {st st' : Stream} (hcount : st'.bitCount = st.bitCount)
    (hw : ∀ k, 7 * k + 7 ≤ st.bitCount → t1Window inv st (7 * k) = t1Window inv' st' (7 * k)) {n k : Nat}
    (hn : 7 * (k + n) ≤ st.bitCount) (found : Bool) (chars str : List Byte) :
    t1Scan inv st n (7 * k) k found chars str = t1Scan inv' st' n (7 * k) k found chars str := by
  have hcheck : ∀ j chars str, t1Checksum inv st (7 * j) chars str = t1Checksum inv' st' (7 * j) chars str := by
    intro j chars str
    rw [t1Checksum, t1Checksum, hcount]
    by_cases hj : 7 * j + 7 > st.bitCount
    · rw [if_pos hj, if_pos hj]
    · rw [hw j (by omega)]
  induction n generalizing k found chars str with
  | zero => rfl
  | succ n ih =>
    have hnext : 7 * k + 7 = 7 * (k + 1) := by omega
    have hrest : 7 * (k + 1 + n) ≤ st.bitCount := by omega
    simp only [t1Scan_succ, hw k (by omega), hnext, hcheck, ih hrest]

/-- Where the whole windows at multiples of 7 agree, the decoders agree. -/
theorem decodeT1_congr {inv inv' : Bool} {st st' : Stream} (hcount : st'.bitCount = st.bitCount)
    (hw : ∀ k, 7 * k + 7 ≤ st.bitCount → t1Window inv st (7 * k) = t1Window inv' st' (7 * k)) :
    decodeT1 inv st = decodeT1 inv' st' := by
  have hn : 7 * (0 + st.windowsFrom 0 7) ≤ st.bitCount := by unfold Stream.windowsFrom; omega
  have hwindows : st'.windowsFrom 0 7 = st.windowsFrom 0 7 := by rw [Stream.windowsFrom, hcount, ← Stream.windowsFrom]
  rw [decodeT1, decodeT1, hcount, hwindows]
  exact if_congr Iff.rfl rfl (t1Scan_congr hcount hw hn false [] [])

/-- The bits of a list are the bits of its LSB-first value. -/
theorem testBit_bitsLsbFirst (l : List Bool) (k : Nat) : (bitsLsbFirst l).testBit k = l[k]?.getD false := by
  induction l generalizing k with
  | nil => simp [bitsLsbFirst]
  | cons b l ih =>
    have hbit : bitsLsbFirst (b :: l) = Nat.bit b (bitsLsbFirst l) := by
      rw [Nat.bit_val, Nat.add_comm]; rfl
    cases k with
    | zero => rw [hbit, Nat.testBit_bit_zero]; rfl
    | succ k => rw [hbit, Nat.testBit_bit_succ, ih]; rfl

/-- Bit `k` of a window is the stream's bit at that place, within the window's width. -/
theorem Stream.windowLsb_getLsbD (st : Stream) {o w k : Nat} (hk : k < 8) :
    (st.windowLsb o w).getLsbD k = (decide (k < w) && st.bit (o + k)) := by
  rw [Stream.windowLsb, BitVec.getLsbD_ofNat, testBit_bitsLsbFirst]
  by_cases hkw : k < w <;> simp [Stream.bits, hk, hkw]

/-- A window of the complement is the complement of the window (R183). -/
theorem windowLsb_complement {st st' : Stream} {o w : Nat}
    (h : ∀ i, o ≤ i → i < o + w → st'.bit i = !st.bit i) : st'.windowLsb o w = invertWidth w (st.windowLsb o w) := by
  refine BitVec.eq_of_getLsbD_eq fun k hk => ?_
  rw [invertWidth, BitVec.getLsbD_xor, widthMask_getLsbD hk, Stream.windowLsb_getLsbD st' hk,
    Stream.windowLsb_getLsbD st hk]
  by_cases hkw : k < w
  · simp [hkw, h (o + k) (by omega) (by omega)]
  · simp [hkw]

/-- Settles O40: TRACK1_INV complements the windows that TRACK1 reads complemented already. -/
theorem track1InvDecodesComplement : Obligations.Track1InvDecodesComplement := by
  intro st st' hcount hbits
  refine decodeT1_congr hcount fun k hk => ?_
  refine (windowLsb_complement fun i _ hi => hbits i ?_).symm
  omega

end Sys2Proof.Machine
end

section
/-! PROOFS. The Track2 family (43_track2.md R200 to R218): the search for the lock, the round trip of a frame, raw mode, and
the inert and the even variants. -/

namespace Sys2Proof.Machine

/-! ### The bit-slip search (R206) -/

theorem t2Search_eq_some_iff {par : T2Params} {st : Stream} {o : Nat} :
    t2Search par st = some o ↔
      o + 5 ≤ st.bitCount ∧ canon par st o = 0x0B#8 ∧ ∀ o', o' < o → canon par st o' ≠ 0x0B#8 := by
  have hrange : o ∈ List.range (st.bitCount - 4) ↔ o + 5 ≤ st.bitCount := by rw [List.mem_range]; omega
  rw [t2Search, List.find?_range_eq_some, hrange, and_left_comm]
  simp

theorem t2Search_eq_none_iff {par : T2Params} {st : Stream} :
    t2Search par st = none ↔ ∀ o, o + 5 ≤ st.bitCount → canon par st o ≠ 0x0B#8 := by
  have hrange : ∀ o, o ∈ List.range (st.bitCount - 4) ↔ o + 5 ≤ st.bitCount := by
    intro o; rw [List.mem_range]; omega
  simp [t2Search, List.find?_eq_none, ← hrange]

/-- Settles O35: the search is the first match of a range. -/
theorem searchFindsFirstSentinel : Obligations.SearchFindsFirstSentinel :=
  fun _ _ => ⟨fun _ => t2Search_eq_some_iff, t2Search_eq_none_iff⟩

/-- Five equal bits are never the start sentinel, in either order and polarity: the sentinel's five bits are not equal. -/
theorem canon_of_uniform (par : T2Params) {st : Stream} {o : Nat} {b : Bool}
    (h : ∀ i, o ≤ i → i < o + 5 → st.bit i = b) : canon par st o ≠ 0x0B#8 := by
  have hbits : st.bits o 5 = [b, b, b, b, b] :=
    List.ext_getElem (by simp) fun k hk _ => by
      rw [Stream.length_bits] at hk
      rw [Stream.getElem_bits, h (o + k) (by omega) (by omega)]
      interval_cases k <;> rfl
  rw [canon, Stream.windowLsb, hbits]
  generalize par.inv = inv
  generalize par.msb = msb
  clear hbits h
  revert b inv msb
  decide

/-- Settles O36: no offset of a uniform stream matches, so the search answers none. -/
theorem uniformStreamNeverLocks : Obligations.UniformStreamNeverLocks := by
  intro span par st b hraw hlong huniform
  refine decodeT2Span_of_search_none hraw (Nat.not_lt.2 hlong) (t2Search_eq_none_iff.2 fun o ho => ?_) span
  exact canon_of_uniform par fun i _ hi => huniform i (by omega)

/-! ### The round trip of a frame (95_test_vectors.md S-4) -/

theorem t2Stops_eq_false {par : T2Params} {st : Stream} {lock k : Nat}
    (hgood : parityOk (t2Window par st lock k) 5 par.mode = true) (hdata : t2Window par st lock k ≠ 0x1F#8) :
    t2Stops par st lock k = false := by
  simp [t2Stops, hgood, hdata]

theorem t2Stops_of_end {par : T2Params} {st : Stream} {lock k : Nat} (h : t2Window par st lock k = 0x1F#8) :
    t2Stops par st lock k = true := by
  simp [t2Stops, h]

/-- CHARS of windows that hold a list is the list. -/
theorem t2Chars_of_reads {par : T2Params} {st : Stream} {lock n : Nat} {l : List Byte}
    (h : Reads (t2Window par st lock) 0 l) (hn : n = l.length) : t2Chars par st lock n = l := by
  simpa [t2Chars] using h.map_range hn

/-- Locked, with the first window that stops the scan an end sentinel inside the stream: the answer is `t2Ending`. -/
theorem decodeT2Span_of_sentinels {par : T2Params} {st : Stream} {lock b : Nat} (hraw : par.raw = false)
    (hsearch : t2Search par st = some lock) (hb : lock + 5 * (b + 1) ≤ st.bitCount) (hlong : ¬ st.bitCount < 15)
    (hstop : t2Stops par st lock b = true) (hread : ∀ j < b, t2Stops par st lock j = false) (span : LrcSpan) :
    decodeT2Span span par st = t2Ending span par st lock b := by
  have hwindows : b < (st.bitCount - lock) / 5 := by omega
  rw [decodeT2Span_of_search_some hraw hlong hsearch, find_range_eq_some hwindows hstop hread, Option.elim_some]

/-- Settles O34: the frame locks the search, its end sentinel stops the scan, and what has been read is its characters. -/
theorem track2RoundTrip : Obligations.Track2RoundTrip := by
  intro span par st lock data hraw heven hne hdata chars check frame hfit hfirst hframe
  have hmode : par.mode = .odd := by simp [T2Params.mode, heven]
  have hpos : 0 < data.length := List.length_pos_iff.2 hne
  obtain ⟨b, hb⟩ : ∃ b, b = 1 + data.length := ⟨_, rfl⟩
  have hlength : frame.length = b + 2 := by simp [frame, hb]; omega
  have hreads : Reads (t2Window par st lock) 0 ([0x0B] ++ data ++ [0x1F] ++ [check]) := by
    have hframe' : frame = [0x0B] ++ data ++ [0x1F] ++ [check] := by simp [frame]
    rw [← hframe']
    exact fun k hk => by rw [Nat.zero_add]; exact hframe k hk
  obtain ⟨hchars, hcheck⟩ := reads_append.1 hreads
  have hparts := hchars
  simp only [reads_append, reads_singleton, List.length_append, List.length_singleton, Nat.zero_add, ← hb]
    at hparts hcheck
  obtain ⟨⟨hss, hdatas⟩, hes⟩ := hparts
  have hsearch : t2Search par st = some lock :=
    t2Search_eq_some_iff.2 ⟨by omega, hss, hfirst⟩
  have hcheckEq : t2Check span par st lock b = check := by
    have hexcl : t2Chars par st lock b = 0x0B :: data := t2Chars_of_reads (reads_append.1 hchars).1 (by simp; omega)
    have hincl : t2Chars par st lock (b + 1) = 0x0B :: data ++ [0x1F] := t2Chars_of_reads hchars (by simp; omega)
    have hspan : t2Chars par st lock (if span = .inclEs then b + 1 else b) = chars := by
      cases span
      case exclEs => exact hexcl
      case inclEs => exact hincl
    rw [t2Check, hspan]
    rfl
  have htext : t2Text par st lock b = data.map fun c => 0x30 + (c &&& 0x0F) := by
    have hmap := congrArg (List.map t2Char) (hdatas.map_range (n := b - 1) (by omega))
    rw [List.map_map] at hmap
    rw [t2Text, ← show data.map t2Char = data.map (fun c => 0x30 + (c &&& 0x0F)) from rfl, ← hmap]
    simp [Nat.add_comm]
  have hread : ∀ j < b, t2Stops par st lock j = false := by
    intro j hj
    obtain rfl | hjpos := Nat.eq_zero_or_pos j
    · exact t2Stops_eq_false (by rw [hss, hmode]; decide) (by rw [hss]; decide)
    · obtain ⟨hodd, hdatum⟩ := hdata _ (hdatas.mem hjpos (by omega))
      exact t2Stops_eq_false (hmode ▸ hodd) hdatum
  have hstop : t2Stops par st lock b = true := t2Stops_of_end hes
  rw [decodeT2Span_of_sentinels hraw hsearch (by omega) (by omega) hstop hread,
    t2Ending_of_stops span (canon_of_t2Search hsearch) hstop, if_neg (by rw [hes, hmode]; decide), if_neg (by omega),
    if_neg (by rw [hcheckEq, hcheck]; simp), if_neg (by omega), htext]

/-! ### Raw mode (R203, R215) -/

/-- Window `k` of raw mode is of wrong parity. -/
def t2RawBad (par : T2Params) (st : Stream) (k : Nat) : Bool := !parityOk (canon par st (5 * k)) 5 par.mode

/-- STR of raw mode at window `k`. -/
def t2RawText (par : T2Params) (st : Stream) (k : Nat) : List Byte :=
  (List.range k).map fun j => t2Char (canon par st (5 * j))

theorem t2RawText_succ (par : T2Params) (st : Stream) (k : Nat) :
    t2RawText par st (k + 1) = t2RawText par st k ++ [t2Char (canon par st (5 * k))] := by
  rw [t2RawText, List.range_succ, List.map_append]
  rfl

/-- Raw mode at window `k` answers the first window of wrong parity from there on, or all that was read. -/
theorem t2Raw_eq_find (par : T2Params) (st : Stream) (n k : Nat) :
    t2Raw par st n (5 * k) k (t2RawText par st k) =
      ((List.range (k + n)).find? fun j => decide (k ≤ j) && t2RawBad par st j).elim
        (nonEmpty (t2RawText par st (k + n))) fun j => .error (.parityError j) := by
  induction n generalizing k with
  | zero => rw [find_range_from, if_neg (by omega)]; rfl
  | succ n ih =>
    have hmore : k < k + (n + 1) := by omega
    have hwindows : k + 1 + n = k + (n + 1) := by omega
    rw [t2Raw_succ, find_range_from, if_pos hmore, ← t2RawText_succ, ← Nat.mul_succ, ih, hwindows, t2RawBad]
    cases parityOk (canon par st (5 * k)) 5 par.mode <;> rfl

theorem decodeT2Span_of_raw {par : T2Params} (hraw : par.raw = true) (span : LrcSpan) (st : Stream) :
    decodeT2Span span par st =
      ((List.range (st.bitCount / 5)).find? (t2RawBad par st)).elim
        (nonEmpty (t2RawText par st (st.bitCount / 5))) fun j => .error (.parityError j) := by
  rw [decodeT2Span, if_pos hraw]
  simpa [Stream.windowsFrom, t2RawText] using t2Raw_eq_find par st (st.windowsFrom 0 5) 0

/-- The string of raw mode is empty only where there is no whole window. -/
theorem nonEmpty_t2RawText (par : T2Params) (st : Stream) :
    nonEmpty (t2RawText par st (st.bitCount / 5)) =
      if st.bitCount < 5 then .error (.noValidFormat Config.emptyAttempted)
      else .ok (t2RawText par st (st.bitCount / 5)) := by
  have hempty : t2RawText par st (st.bitCount / 5) = [] ↔ st.bitCount < 5 := by
    rw [t2RawText, List.map_eq_nil_iff, List.range_eq_nil]
    omega
  simp only [nonEmpty, hempty]

/-- Settles O37: the scan is the search for a window of wrong parity. -/
theorem track2RawResult : Obligations.Track2RawResult := by
  intro span par st hraw
  rw [decodeT2Span_of_raw hraw]
  split
  next k hsome =>
    have hfind : (List.range (st.bitCount / 5)).find? (t2RawBad par st) = some k := hsome
    rw [hfind, Option.elim_some]
  next hnone =>
    have hfind : (List.range (st.bitCount / 5)).find? (t2RawBad par st) = none := hnone
    rw [hfind, Option.elim_none, nonEmpty_t2RawText]
    rfl

/-! ### What the answer depends on -/

/-- Two parameter sets on two streams that a decoder of the family cannot tell apart: the same windows, parity mode and
polarity of the checksum. -/
structure T2Same (par par' : T2Params) (st st' : Stream) : Prop where
  count : st'.bitCount = st.bitCount
  canon_eq : ∀ p, p + 5 ≤ st.bitCount → canon par st p = canon par' st' p
  raw : par'.raw = par.raw
  mode : par'.mode = par.mode
  inv : par'.inv = par.inv

section
variable {par par' : T2Params} {st st' : Stream} (h : T2Same par par' st st')
include h

theorem T2Same.windowsFrom (p : Nat) : st'.windowsFrom p 5 = st.windowsFrom p 5 := by
  rw [Stream.windowsFrom, h.count, ← Stream.windowsFrom]

theorem T2Same.search : t2Search par st = t2Search par' st' := by
  refine Option.ext fun o => ?_
  rw [t2Search_eq_some_iff, t2Search_eq_some_iff, h.count]
  refine and_congr_right fun ho => ?_
  rw [h.canon_eq o ho]
  refine and_congr_right fun _ => forall₂_congr fun o' ho' => ?_
  rw [h.canon_eq o' (by omega)]

theorem T2Same.checksum (span : LrcSpan) (p : Nat) (c : Byte) (chars str : List Byte) :
    t2Checksum span par st p c chars str = t2Checksum span par' st' p c chars str := by
  simp only [t2Checksum, h.count, h.inv]
  by_cases hp : p + 5 + 5 > st.bitCount
  · rw [if_pos hp, if_pos hp]
  · rw [h.canon_eq (p + 5) (by omega)]

theorem T2Same.scan (span : LrcSpan) {n p : Nat} (hn : p + 5 * n ≤ st.bitCount) (idx : Nat) (chars str : List Byte) :
    t2Scan span par st n p idx chars str = t2Scan span par' st' n p idx chars str := by
  induction n generalizing p idx chars str with
  | zero => rfl
  | succ n ih =>
    have hrest : p + 5 + 5 * n ≤ st.bitCount := by omega
    simp only [t2Scan_succ, h.canon_eq p (by omega), h.mode, h.checksum, ih hrest]

theorem T2Same.rawScan {n p : Nat} (hn : p + 5 * n ≤ st.bitCount) (idx : Nat) (str : List Byte) :
    t2Raw par st n p idx str = t2Raw par' st' n p idx str := by
  induction n generalizing p idx str with
  | zero => rfl
  | succ n ih =>
    have hrest : p + 5 + 5 * n ≤ st.bitCount := by omega
    simp only [t2Raw_succ, h.canon_eq p (by omega), h.mode, ih hrest]

theorem T2Same.decode (span : LrcSpan) : decodeT2Span span par st = decodeT2Span span par' st' := by
  have hraws := h.rawScan (n := st.windowsFrom 0 5) (p := 0) (by unfold Stream.windowsFrom; omega) 0 []
  rw [decodeT2Span, decodeT2Span, h.raw, h.windowsFrom, hraws, h.count, ← h.search]
  cases hsearch : t2Search par st with
  | none => rfl
  | some lock =>
    have hlock := (t2Search_eq_some_iff.1 hsearch).1
    have hn : lock + 5 * st.windowsFrom lock 5 ≤ st.bitCount := by unfold Stream.windowsFrom; omega
    simp only [h.scan span hn, h.windowsFrom]

end

/-- The swapped-parity flag reaches no window, no parity mode and no checksum (R202). -/
theorem t2Same_swp (par : T2Params) (b : Bool) (st : Stream) : T2Same { par with swp := b } par st st :=
  ⟨rfl, fun _ _ => rfl, rfl, rfl, rfl⟩

/-- Settles O38: the flag tells no two decoders apart, and LSB-first order and Track3 have every default. -/
theorem inertVariantsDecodeAsTrack2 : Obligations.InertVariantsDecodeAsTrack2 := by
  refine ⟨fun span par b st => (t2Same_swp par b st).decode span, fun st => ⟨?_, rfl, rfl⟩⟩
  exact congrArg some ((t2Same_swp {} true st).decode Config.t2LrcSpan)

/-! ### Even parity (R217) -/

/-- The start sentinel itself has odd weight, so a locked scan of the even variant ends at window 0. -/
theorem t2Ending_even {st : Stream} {lock : Nat} (span : LrcSpan) {par : T2Params} (heven : par.even = true)
    (hlock : canon par st lock = 0x0B#8) :
    t2Stops par st lock 0 = true ∧ t2Ending span par st lock 0 = .error (.parityError 0) := by
  have hbad : parityOk (t2Window par st lock 0) 5 par.mode = false := by
    have hmode : par.mode = .even := by simp [T2Params.mode, heven]
    have hstart : t2Window par st lock 0 = 0x0B#8 := hlock
    rw [hmode, hstart]
    decide
  exact ⟨by simp [t2Stops, hbad], by rw [t2Ending, if_pos hbad]⟩

/-- Settles O39: too short, no lock, or a lock whose own window fails the parity test. -/
theorem track2EvenNeverSucceeds : Obligations.Track2EvenNeverSucceeds := by
  intro st
  have hdecoder : decodeTrack2Even st = decodeT2Span Config.t2LrcSpan { even := true } st := rfl
  rw [hdecoder]
  by_cases hshort : st.bitCount < 15
  · exact .inl ⟨hshort, decodeT2Span_of_short hshort rfl _⟩
  refine .inr ?_
  cases hsearch : t2Search { even := true } st with
  | none => exact .inl ⟨Nat.not_lt.1 hshort, decodeT2Span_of_search_none rfl hshort hsearch _⟩
  | some lock =>
    obtain ⟨hfit, hlock, -⟩ := t2Search_eq_some_iff.1 hsearch
    obtain ⟨hstop, hending⟩ := t2Ending_even Config.t2LrcSpan rfl hlock
    refine .inr ⟨Nat.not_lt.1 hshort, ?_⟩
    rw [← hending]
    exact decodeT2Span_of_sentinels rfl hsearch (by omega) hshort hstop (fun j hj => absurd hj (by omega)) _

end Sys2Proof.Machine
end

section
/-! PROOFS. The Custom decoder (44_custom.md R240 to R247): the round trip of a frame, and the characters. -/

namespace Sys2Proof.Machine

/-! ### The round trip of a frame -/

/-- A list that maps to characters as a whole keeps them all when it is filtered for its characters. -/
theorem filterMap_of_mapM {g : Byte → Option Byte} {l str : List Byte} (h : l.mapM g = some str) :
    l.filterMap g = str ∧ ∀ v ∈ l, (g v).isSome = true := by
  induction l generalizing str with
  | nil => simp_all
  | cons v l ih =>
    simp only [List.mapM_cons, Option.bind_eq_bind, Option.bind_eq_some_iff, Option.pure_def, Option.some.injEq] at h
    obtain ⟨ch, hch, rest, hrest, rfl⟩ := h
    obtain ⟨htext, hsome⟩ := ih hrest
    exact ⟨by simp [hch, htext], by simpa [hch] using hsome⟩

/-- The text of windows that hold a list is the characters of the list. -/
theorem customText_of_reads {f : FormatSpec} {st : Stream} {p : Nat} {data : List Byte}
    (h : Reads (customValue f st) p data) :
    customText f st p (p + data.length) = data.filterMap (customChar f.bitsPerChar) := by
  rw [customText, Nat.add_sub_cancel_left, ← congrArg (List.filterMap _) (h.map_range rfl), List.filterMap_map]
  rfl

/-- Window `k` holds a data character: the started scan reads it and goes on. -/
theorem customStops_of_char {f : FormatSpec} {st : Stream} {k : Nat} (hgood : customGood f st k = true)
    (hnotEnd : f.endValid = true → customValue f st k ≠ f.endSentinel)
    (hchar : (customChar f.bitsPerChar (customValue f st k)).isSome = true) : customStops f st k = false := by
  have hnone : (customChar f.bitsPerChar (customValue f st k)).isNone = false := by
    rw [← Option.not_isSome, hchar]; rfl
  cases hend : f.endValid <;> simp_all [customStops, customIsEnd]

theorem customStops_of_isEnd {f : FormatSpec} {st : Stream} {k : Nat} (h : customIsEnd f st k = true) :
    customStops f st k = true := by
  simp [customStops, h]

/-- Windows from `p` on that hold data characters, then the end sentinel or, where none is configured, the last whole
window: the started scan answers the characters. -/
theorem customBody_of_data {f : FormatSpec} {st : Stream} {n p : Nat} {data str : List Byte}
    (hdatas : Reads (customValue f st) p data)
    (hgood : ∀ v ∈ data, parityOk v f.bitsPerChar f.parity = true)
    (hnotEnd : f.endValid = true → ∀ v ∈ data, v ≠ f.endSentinel)
    (hstr : data.mapM (customChar f.bitsPerChar) = some str) (hne : str ≠ [])
    (hend : f.endValid = true → p + data.length < n ∧ customGood f st (p + data.length) = true ∧
      customValue f st (p + data.length) = f.endSentinel)
    (hlast : f.endValid = false → p + data.length = n) :
    customBody f st n p = .ok str := by
  obtain ⟨htext, hchars⟩ := filterMap_of_mapM hstr
  have hpos : p + data.length ≠ p := by
    rintro hzero
    have hnil : data = [] := List.length_eq_zero_iff.1 (by omega)
    exact hne (by rw [← htext, hnil]; rfl)
  have hfinish : customFinish f st p (p + data.length) = .ok str := by
    rw [customFinish, if_neg hpos, customText_of_reads hdatas, htext]
  have hread : ∀ j < p + data.length, p ≤ j → customStops f st j = false := by
    intro j hj hpj
    have hmem := hdatas.mem hpj hj
    exact customStops_of_char (hgood _ hmem) (fun hvalid => hnotEnd hvalid _ hmem) (hchars _ hmem)
  cases hvalid : f.endValid with
  | true =>
    obtain ⟨hlt, hgoodEnd, hsentinel⟩ := hend hvalid
    have hisEnd : customIsEnd f st (p + data.length) = true := by simp [customIsEnd, hvalid, hsentinel]
    have hfind := find_range_from_eq_some (Nat.le_add_right _ _) hlt (customStops_of_isEnd hisEnd) hread
    rw [customBody_of_find_some hfind, hgoodEnd, if_neg (by decide), if_pos hisEnd, hfinish]
  | false =>
    have hn := hlast hvalid
    subst hn
    have hfind : (List.range (p + data.length)).find? (fun j => decide (p ≤ j) && customStops f st j) = none := by
      simpa [List.find?_eq_none] using hread
    rw [customBody_of_find_none (Nat.le_add_right _ _) hfind, hvalid, if_neg (by decide), hfinish]

theorem customStarts_of_sentinel {f : FormatSpec} {st : Stream} {k : Nat} (h : customValue f st k = f.startSentinel) :
    customStarts f st k = true := by
  simp [customStarts, h]

theorem customStarts_eq_false {f : FormatSpec} {st : Stream} {k : Nat} (hgood : customGood f st k = true)
    (hvalue : customValue f st k ≠ f.startSentinel) : customStarts f st k = false := by
  simp [customStarts, hgood, hvalue]

/-- Filler windows and the start sentinel, where one is configured, bring the scan to the window after them. -/
theorem decodeCustom_of_lead {f : FormatSpec} {st : Stream} {filler : List Byte}
    (hwidth : ¬ (f.bitsPerChar = 0 ∨ 8 < f.bitsPerChar))
    (hlead : f.startValid = true → filler.length < st.bitCount / f.bitsPerChar ∧
      Reads (customValue f st) 0 (filler ++ [f.startSentinel]) ∧
      ∀ v ∈ filler ++ [f.startSentinel], parityOk v f.bitsPerChar f.parity = true)
    (hfiller : ∀ v ∈ filler, v ≠ f.startSentinel) :
    decodeCustom f st =
      customBody f st (st.bitCount / f.bitsPerChar)
        (if f.startValid then filler ++ [f.startSentinel] else []).length := by
  cases hvalid : f.startValid with
  | false => exact decodeCustom_of_not_startValid hwidth hvalid st
  | true =>
    obtain ⟨hfit, hreads, hgood⟩ := hlead hvalid
    obtain ⟨hfillers, hsentinel⟩ := reads_append.1 hreads
    rw [reads_singleton, Nat.zero_add] at hsentinel
    have hskip : ∀ j < filler.length, customStarts f st j = false := by
      intro j hj
      have hmem := hfillers.mem j.zero_le (by omega)
      exact customStarts_eq_false (hgood _ (List.mem_append_left _ hmem)) (hfiller _ hmem)
    have hstartGood : customGood f st filler.length = true := by
      rw [customGood, hsentinel]
      exact hgood _ (by simp)
    rw [decodeCustom_of_startValid hwidth hvalid, find_range_eq_some hfit (customStarts_of_sentinel hsentinel) hskip,
      Option.elim_some, customStarting, hstartGood, if_neg (by decide), if_pos rfl, List.length_append]
    rfl

/-- Settles O41: what leads the frame brings the scan to its data, and the data is followed by its end. -/
theorem customRoundTrip : Obligations.CustomRoundTrip := by
  intro f st filler data str hpos hle hfiller hnotEnd hstr hne frame hgood hfit hlast hframe
  have hwidth : ¬ (f.bitsPerChar = 0 ∨ 8 < f.bitsPerChar) := by omega
  have hwindows : frame.length ≤ st.bitCount / f.bitsPerChar :=
    (Nat.le_div_iff_mul_le hpos).2 (Nat.mul_comm _ _ ▸ hfit)
  have hreads : Reads (customValue f st) 0 frame := fun k hk => by rw [Nat.zero_add]; exact hframe k hk
  simp only [frame, reads_append, Nat.zero_add] at hreads
  obtain ⟨⟨hlead, hdatas⟩, htail⟩ := hreads
  have hgoodLead := fun v hv => hgood v (List.mem_append_left _ (List.mem_append_left _ hv))
  have hgoodData := fun v hv => hgood v (List.mem_append_left _ (List.mem_append_right _ hv))
  have hgoodTail := fun v hv => hgood v (List.mem_append_right _ hv)
  have hlength := hwindows
  simp only [frame, List.length_append] at hlength
  rw [decodeCustom_of_lead hwidth (filler := filler) (fun hvalid => ?lead) hfiller]
  case lead =>
    rw [if_pos hvalid] at hlead hgoodLead hlength
    rw [List.length_append, List.length_singleton] at hlength
    exact ⟨by omega, hlead, hgoodLead⟩
  refine customBody_of_data hdatas hgoodData hnotEnd hstr hne (fun hvalid => ?_) fun hvalid => ?_
  · rw [if_pos hvalid] at htail hgoodTail hlength
    rw [List.length_append, reads_singleton] at htail
    refine ⟨by rw [List.length_singleton] at hlength; omega, ?_, htail⟩
    rw [customGood, htail]
    exact hgoodTail _ (by simp)
  · rw [← hlast hvalid]
    simp [frame, hvalid]

/-! ### The characters (R247) -/

/-- The table's range test on a byte as the test on its number. -/
theorem customChar_digit {w : Nat} (hw : w ∈ [1, 2, 3, 4, 6]) (v : Byte) :
    customChar w v = if v.toNat ≤ 9 then some (BitVec.ofNat 8 (0x30 + v.toNat)) else none := by
  have hother : w ≠ 5 ∧ w ≠ 7 ∧ w ≠ 8 := by
    simp only [List.mem_cons, List.not_mem_nil, or_false] at hw
    omega
  obtain ⟨h5, h7, h8⟩ := hother
  have hdigit : BitVec.ofNat 8 (0x30 + v.toNat) = 0x30#8 + v := by
    rw [BitVec.ofNat_add, BitVec.ofNat_toNat, BitVec.setWidth_eq]
  rw [customChar, if_neg h5, if_neg h7, if_neg h8, hdigit]
  rfl

/-- Settles O42: widths 5, 7 and 8 by definition, and the digits of the others. -/
theorem customCharacterTable : Obligations.CustomCharacterTable := by
  refine fun v => ⟨rfl, rfl, rfl, fun w hw => ⟨fun hv => ?_, fun hv => ?_⟩⟩
  · rw [customChar_digit hw, if_pos hv]
  · rw [customChar_digit hw, if_neg (Nat.not_le.2 hv)]

end Sys2Proof.Machine
end

section
/-! PROOFS. Which errors each decoder can raise, and how long its strings can be (60_exceptions.md R305). -/

namespace Sys2Proof.Machine

/-- The answer is an error of one of the kinds, or a string that is not empty and within the bound. -/
def Answers (codes : List Nat) (bound : Nat) (r : DecodeResult) : Prop :=
  (∀ e, r = .error e → e.code.toNat ∈ codes) ∧ ∀ str, r = .ok str → 1 ≤ str.length ∧ str.length ≤ bound

/-- An error answers when its code (R281) is among those allowed. -/
theorem answers_error {codes : List Nat} {bound : Nat} {e : Err} (code : Nat) (hcode : e.code.toNat = code)
    (h : code ∈ codes) : Answers codes bound (.error e) :=
  ⟨fun _ he => by cases he; exact hcode ▸ h, fun _ hok => by cases hok⟩

theorem answers_nonEmpty {codes : List Nat} {bound : Nat} {str : List Byte} (hcode : 2 ∈ codes)
    (hlen : str.length ≤ bound) : Answers codes bound (nonEmpty str) := by
  obtain ⟨-, h⟩ | ⟨hne, h⟩ := nonEmpty_cases str
  · exact h ▸ answers_error 2 rfl hcode
  · rw [h]
    refine ⟨fun _ he => (by cases he), fun _ hok => ?_⟩
    cases hok
    exact ⟨List.length_pos_iff.2 hne, hlen⟩

theorem Stream.windowsFrom_le (st : Stream) (p w : Nat) : st.windowsFrom p w ≤ st.bitCount :=
  (Nat.div_le_self _ _).trans (Nat.sub_le _ _)

/-! ### Track1 (R184) -/

theorem t1Checksum_answers (inv : Bool) (st : Stream) (p : Nat) (chars : List Byte) {str : List Byte} {bound : Nat}
    (hlen : str.length ≤ bound) : Answers [2, 3, 4, 5, 6, 7] bound (t1Checksum inv st p chars str) := by
  rw [t1Checksum]
  split_ifs
  · exact answers_error 3 rfl (by decide)
  · exact answers_error 7 rfl (by decide)
  · exact answers_nonEmpty (by decide) hlen

/-- Each window adds at most one character. -/
theorem t1Scan_answers (inv : Bool) (st : Stream) {n bound : Nat} {str : List Byte} (p idx : Nat) (found : Bool)
    (chars : List Byte) (hlen : str.length + n ≤ bound) :
    Answers [2, 3, 4, 5, 6, 7] bound (t1Scan inv st n p idx found chars str) := by
  induction n generalizing p idx found chars str with
  | zero =>
    cases found with
    | true => exact answers_error 6 rfl (by decide)
    | false => exact answers_error 5 rfl (by decide)
  | succ n ih =>
    rw [t1Scan_succ, if_neg (t1Data_range _)]
    split_ifs
    · exact answers_error 4 rfl (by decide)
    · exact ih _ _ _ _ (by omega)
    · exact ih _ _ _ _ (by omega)
    · exact t1Checksum_answers _ _ _ _ (by omega)
    · exact ih _ _ _ _ (by simp; omega)

theorem decodeT1_answers (inv : Bool) (st : Stream) : Answers [2, 3, 4, 5, 6, 7] st.bitCount (decodeT1 inv st) := by
  rw [decodeT1]
  split_ifs
  · exact answers_error 3 rfl (by decide)
  · exact t1Scan_answers _ _ _ _ _ _ (by simpa using st.windowsFrom_le 0 7)

/-! ### The Track2 family (R209, R210) -/

theorem t2Checksum_answers (span : LrcSpan) (par : T2Params) (st : Stream) (p : Nat) (c : Byte) (chars : List Byte)
    {str : List Byte} {bound : Nat} (hlen : str.length ≤ bound) :
    Answers [2, 3, 4, 5, 6, 7] bound (t2Checksum span par st p c chars str) := by
  unfold t2Checksum
  extract_lets
  split_ifs
  · exact answers_error 3 rfl (by decide)
  · exact answers_error 7 rfl (by decide)
  · exact answers_nonEmpty (by decide) hlen

theorem t2Scan_answers (span : LrcSpan) (par : T2Params) (st : Stream) {n bound : Nat} {str : List Byte} (p idx : Nat)
    (chars : List Byte) (hlen : str.length + n ≤ bound) :
    Answers [2, 3, 4, 5, 6, 7] bound (t2Scan span par st n p idx chars str) := by
  induction n generalizing p idx chars str with
  | zero => exact answers_error 6 rfl (by decide)
  | succ n ih =>
    rw [t2Scan_succ]
    split_ifs
    · exact answers_error 4 rfl (by decide)
    · exact t2Checksum_answers _ _ _ _ _ _ (by omega)
    · exact ih _ _ _ (by simp; omega)
    · exact ih _ _ _ (by omega)

theorem t2Raw_answers (par : T2Params) (st : Stream) {n bound : Nat} {str : List Byte} (p idx : Nat)
    (hlen : str.length + n ≤ bound) : Answers [2, 4] bound (t2Raw par st n p idx str) := by
  induction n generalizing p idx str with
  | zero => exact answers_nonEmpty (by decide) hlen
  | succ n ih =>
    rw [t2Raw_succ]
    split_ifs
    · exact answers_error 4 rfl (by decide)
    · exact ih _ _ (by simp; omega)

theorem decodeT2Span_answers_raw (span : LrcSpan) {par : T2Params} (hraw : par.raw = true) (st : Stream) :
    Answers [2, 4] st.bitCount (decodeT2Span span par st) := by
  rw [decodeT2Span, if_pos hraw]
  exact t2Raw_answers _ _ _ _ (by simpa using st.windowsFrom_le 0 5)

theorem decodeT2Span_answers_notRaw (span : LrcSpan) {par : T2Params} (hraw : par.raw = false) (st : Stream) :
    Answers [2, 3, 4, 5, 6, 7] st.bitCount (decodeT2Span span par st) := by
  rw [decodeT2Span, hraw, if_neg (by decide)]
  split_ifs
  · exact answers_error 3 rfl (by decide)
  · split
    · exact answers_error 5 rfl (by decide)
    · exact t2Scan_answers _ _ _ _ _ _ (by simpa using st.windowsFrom_le _ 5)

/-! ### Custom (R246) -/

theorem customEnd_answers (f : FormatSpec) (started ended : Bool) {str : List Byte} {bound : Nat}
    (hlen : str.length ≤ bound) : Answers [2, 4, 5, 6, 8] bound (customEnd f started ended str) := by
  rw [customEnd]
  split_ifs
  · exact answers_error 5 rfl (by decide)
  · exact answers_error 6 rfl (by decide)
  · exact answers_nonEmpty (by decide) hlen

theorem customScan_answers (f : FormatSpec) (st : Stream) {n bound : Nat} {str : List Byte} (p idx : Nat)
    (started : Bool) (hlen : str.length + n ≤ bound) :
    Answers [2, 4, 5, 6, 8] bound (customScan f st n p idx started str) := by
  induction n generalizing p idx started str with
  | zero => exact customEnd_answers _ _ _ hlen
  | succ n ih =>
    rw [customScan_succ]
    split_ifs
    · exact answers_error 4 rfl (by decide)
    · exact ih _ _ _ (by omega)
    · exact customEnd_answers _ _ _ (by omega)
    · cases customChar f.bitsPerChar (customWindow f st p) with
      | none => exact answers_error 8 rfl (by decide)
      | some ch => exact ih _ _ _ (by simp; omega)

theorem decodeCustom_answers_of_width {f : FormatSpec} (hwidth : ¬ (f.bitsPerChar = 0 ∨ 8 < f.bitsPerChar))
    (st : Stream) : Answers [2, 4, 5, 6, 8] st.bitCount (decodeCustom f st) := by
  rw [decodeCustom, if_neg (by omega)]
  exact customScan_answers _ _ _ _ _ (by simpa using st.windowsFrom_le 0 _)

/-- Settles O43: the width check is the only source of its error. -/
theorem customWidthCheck : Obligations.CustomWidthCheck := by
  refine fun f st => ⟨fun hwidth => decodeCustom_of_width hwidth st, fun hlo hhi r hr => ?_⟩
  have hcode : 9 ∈ [2, 4, 5, 6, 8] := (decodeCustom_answers_of_width (by omega) st).1 _ hr
  exact absurd hcode (by decide)

/-! ### Every decoder -/

theorem Answers.mono {codes codes' : List Nat} {bound : Nat} {r : DecodeResult} (h : Answers codes bound r)
    (hsub : codes ⊆ codes') : Answers codes' bound r :=
  ⟨fun e he => hsub (h.1 e he), h.2⟩

theorem decodeT2Span_answers (span : LrcSpan) (par : T2Params) (st : Stream) :
    Answers [2, 3, 4, 5, 6, 7] st.bitCount (decodeT2Span span par st) := by
  cases hraw : par.raw with
  | true => exact (decodeT2Span_answers_raw span hraw st).mono (by decide)
  | false => exact decodeT2Span_answers_notRaw span hraw st

theorem decodeCustom_answers (f : FormatSpec) (st : Stream) :
    Answers [2, 4, 5, 6, 8, 9] st.bitCount (decodeCustom f st) := by
  by_cases hwidth : f.bitsPerChar = 0 ∨ 8 < f.bitsPerChar
  · rw [decodeCustom_of_width hwidth]
    exact answers_error 9 rfl (by decide)
  · exact (decodeCustom_answers_of_width hwidth st).mono (by decide)

/-- The table of R261: a descriptor names Track1 with a polarity, the Track2 family with its parameters, or Custom. -/
theorem decodeFormat_cases {i : Instr} (hi : i.isCommand = false) :
    (∃ inv, ∀ st, decodeFormat i st = some (decodeT1 inv st)) ∨
    (∃ par, ∀ st, decodeFormat i st = some (decodeT2Span Config.t2LrcSpan par st)) ∨
    (∃ f, ∀ st, decodeFormat i st = some (decodeCustom f st)) := by
  cases i
  case track1 => exact .inl ⟨false, fun _ => rfl⟩
  case track1Inv => exact .inl ⟨true, fun _ => rfl⟩
  case track2 => exact .inr (.inl ⟨{}, fun _ => rfl⟩)
  case track2Inv => exact .inr (.inl ⟨{ inv := true }, fun _ => rfl⟩)
  case track2Msb => exact .inr (.inl ⟨{ msb := true }, fun _ => rfl⟩)
  case track2Lsb => exact .inr (.inl ⟨{}, fun _ => rfl⟩)
  case track2Raw => exact .inr (.inl ⟨{ raw := true }, fun _ => rfl⟩)
  case track2Swp => exact .inr (.inl ⟨{ swp := true }, fun _ => rfl⟩)
  case track2Even => exact .inr (.inl ⟨{ even := true }, fun _ => rfl⟩)
  case track3 => exact .inr (.inl ⟨{}, fun _ => rfl⟩)
  case custom f => exact .inr (.inr ⟨f, fun _ => rfl⟩)
  all_goals cases hi

/-- Commands have no decoder. -/
theorem isCommand_of_decodeFormat {i : Instr} {st : Stream} {r : DecodeResult} (h : decodeFormat i st = some r) :
    i.isCommand = false := by
  cases i <;> cases h <;> rfl

/-- What an attempt of any descriptor can answer (R305, the second table as a whole). -/
theorem decodeFormat_answers {i : Instr} {st : Stream} {r : DecodeResult} (h : decodeFormat i st = some r) :
    Answers [2, 3, 4, 5, 6, 7, 8, 9] st.bitCount r := by
  obtain ⟨inv, hd⟩ | ⟨par, hd⟩ | ⟨f, hd⟩ := decodeFormat_cases (isCommand_of_decodeFormat h) <;>
    cases (hd st).symm.trans h
  · exact (decodeT1_answers inv st).mono (by decide)
  · exact (decodeT2Span_answers _ par st).mono (by decide)
  · exact (decodeCustom_answers f st).mono (by decide)

/-- Settles O44: each decoder's own kinds, and the strings of all of them. -/
theorem decoderOutcomes : Obligations.DecoderOutcomes := by
  intro st
  exact ⟨fun inv => (decodeT1_answers inv st).1,
    fun span _ e hraw => (decodeT2Span_answers_notRaw span hraw st).1 e,
    fun span _ e hraw => (decodeT2Span_answers_raw span hraw st).1 e,
    fun f => (decodeCustom_answers f st).1,
    fun _ str hok => (decodeFormat_answers hok).2 str rfl⟩

end Sys2Proof.Machine
end

section
/-! PROOFS. The sequencer (45_orchestrator.md R260 to R268): an attempt as a move, DECODE_ONE, and DECODE_LIST's loop. -/

namespace Sys2Proof.Machine

/-! ### One attempt (R261 to R263) -/

/-- A legal word of FL is the word of a descriptor, whose decoder is the entry's. -/
theorem decodeEntry_of_legal {s : State} {k : Nat} (hlegal : legalDescriptor (s.flWord k) = true) :
    ∃ i r, decodeDescriptor (s.flWord k) = .ok i ∧ decodeEntry s k = some r ∧
      ∀ p, exec i (s.setPhase p) = attempt (s.flWord k) r (s.setPhase p) := by
  obtain ⟨i, hd⟩ := legalDescriptor_iff.1 hlegal
  obtain ⟨hdesc, -, hword⟩ := encode_decodeDescriptor hd
  obtain ⟨r, hr, -⟩ := exec_descriptor s hdesc
  refine ⟨i, r, hd, by rw [decodeEntry, hd]; exact hr, fun p => ?_⟩
  obtain ⟨r', hr', hexec⟩ := exec_descriptor (s.setPhase p) hdesc
  cases hr.symm.trans hr'
  rw [hexec, hword]

/-- DECODE_ONE's second move is one attempt of `FL[ARG0]`. -/
theorem engineStep_one_attempt {s : State} (hk : s.arg0.toNat < Config.nFL)
    (hlegal : legalDescriptor (s.flWord s.arg0.toNat) = true) :
    ∃ r, decodeEntry s s.arg0.toNat = some r ∧
      engineStep (s.setPhase .one) = attempt (s.flWord s.arg0.toNat) r (s.setPhase .one) := by
  obtain ⟨i, r, hd, hr, hexec⟩ := decodeEntry_of_legal hlegal
  exact ⟨r, hr, (engineStep_one (s := s.setPhase .one) rfl hk hd).trans (hexec .one)⟩

/-- A move of DECODE_LIST below FLEN is one attempt of `FL[FPC]`. -/
theorem engineStep_list_attempt {s : State} {fpc : Nat} (hfpc : fpc < s.flen.toNat) (hk : fpc < Config.nFL)
    (hlegal : legalDescriptor (s.flWord fpc) = true) :
    ∃ r, decodeEntry s fpc = some r ∧
      engineStep (s.setPhase (.list fpc)) = attempt (s.flWord fpc) r (s.setPhase (.list fpc)) := by
  obtain ⟨i, r, hd, hr, hexec⟩ := decodeEntry_of_legal hlegal
  exact ⟨r, hr, (engineStep_list (s := s.setPhase (.list fpc)) rfl hfpc hk hd).trans (hexec (.list fpc))⟩

/-- A success of DECODE_ONE's attempt records the match under ARG0, one of DECODE_LIST's under FPC. -/
theorem attempt_ok (d : Word) (str : List Byte) (s : State) :
    attempt d (.ok str) s = .next ((s.recordMatch s.attemptIndex d str).endOk 0) := rfl

theorem attempt_error_one {s : State} (h : s.phase = .one) (d : Word) (e : Err) :
    attempt d (.error e) s = .next (s.recordNoMatch.endError e) := by
  rw [attempt, State.attemptFailed, h]

theorem attempt_error_list {s : State} {fpc : Nat} (h : s.phase = .list fpc) (d : Word) (e : Err) :
    attempt d (.error e) s = .next (s.setPhase (.list (fpc + 1))) := by
  rw [attempt, State.attemptFailed, h]

/-- Settles O45: the table of decoders, and the attempt by the stage of the command and the decoder's result. -/
theorem descriptorAttempt : Obligations.DescriptorAttempt := by
  refine ⟨fun _ => ⟨rfl, rfl, rfl, rfl, rfl, rfl, rfl, rfl, rfl, rfl, fun _ => rfl⟩, fun i s hdesc => ?_⟩
  obtain ⟨r, hr, hexec⟩ := exec_descriptor s hdesc
  rw [hexec]
  refine ⟨?_, r, hr, ?_, ?_⟩
  · obtain ⟨str, -, h⟩ | ⟨e, -, h⟩ := attempt_cases (encode i) r s <;> exact ⟨_, h⟩
  · rintro str rfl
    refine ⟨fun hphase => ?_, fun fpc hphase => ?_⟩
    · rw [attempt_ok, State.attemptIndex_one hphase]; rfl
    · rw [attempt_ok, State.attemptIndex_list hphase]; rfl
  · rintro e rfl
    exact ⟨fun hphase => attempt_error_one hphase _ e, fun fpc hphase => attempt_error_list hphase _ e⟩

/-! ### DECODE_ONE (R262) -/

theorem exec_decodeOne_of_outside {s : State} (h : s.flen.toNat > Config.nFL ∨ s.arg0.toNat ≥ s.flen.toNat) :
    exec .decodeOne s = .next (s.endRefused rejOperand) := by
  show execDecodeOne s = _
  rw [execDecodeOne, decodeOneOperand_eq, if_neg (by omega)]

theorem exec_decodeOne_of_illegal {s : State} (hflen : s.flen.toNat ≤ Config.nFL) (hindex : s.arg0.toNat < s.flen.toNat)
    (hlegal : legalDescriptor (s.flWord s.arg0.toNat) = false) :
    exec .decodeOne s = .next (s.endRefused rejDescriptor) := by
  show execDecodeOne s = _
  rw [execDecodeOne, decodeOneOperand_eq, if_pos ⟨hflen, hindex⟩]
  simp only [hlegal, Bool.not_false, if_true]

theorem exec_decodeOne_of_legal {s : State} (hflen : s.flen.toNat ≤ Config.nFL) (hindex : s.arg0.toNat < s.flen.toNat)
    (hlegal : legalDescriptor (s.flWord s.arg0.toNat) = true) :
    exec .decodeOne s = .next (s.setPhase .one) := by
  show execDecodeOne s = _
  rw [execDecodeOne, decodeOneOperand_eq, if_pos ⟨hflen, hindex⟩]
  simp [hlegal]

/-- The attempt of DECODE_ONE ends in the state of R262. -/
theorem engineStep_one_atomic {s : State} (hk : s.arg0.toNat < Config.nFL)
    (hlegal : legalDescriptor (s.flWord s.arg0.toNat) = true) :
    engineStep (s.setPhase .one) = .next (atomicDecodeOne s) := by
  obtain ⟨r, hr, hstep⟩ := engineStep_one_attempt hk hlegal
  rw [hstep, atomicDecodeOne, hr]
  cases r with
  | ok str => rfl
  | error e => rfl

/-- Settles O46: the two refusals, and the accepted command's attempt. -/
theorem decodeOneRefinesRule : Obligations.DecodeOneRefinesRule := by
  refine fun s => ⟨exec_decodeOne_of_outside, fun hflen hindex => ⟨?_, fun hlegal => ?_⟩⟩
  · exact exec_decodeOne_of_illegal hflen hindex
  · exact ⟨_, exec_decodeOne_of_legal hflen hindex hlegal, rfl, engineStep_one_atomic (by omega) hlegal⟩

/-! ### DECODE_LIST (R263) -/

theorem exec_decodeList_of_outside {s : State} (h : s.flen.toNat > Config.nFL) :
    exec .decodeList s = .next (s.endRefused rejOperand) := by
  show execDecodeList s = _
  rw [execDecodeList, decodeListLength_eq, if_neg (by omega)]

theorem exec_decodeList_of_illegal {s : State} (hflen : s.flen.toNat ≤ Config.nFL)
    (hlegal : listLegal s s.flen.toNat = false) : exec .decodeList s = .next (s.endRefused rejDescriptor) := by
  show execDecodeList s = _
  rw [execDecodeList, decodeListLength_eq, if_pos hflen]
  simp [hlegal]

theorem exec_decodeList_of_empty {s : State} (hflen : s.flen = 0) :
    exec .decodeList s = .next (s.recordNoMatch.endError .noFormatsProvided) := by
  show execDecodeList s = _
  rw [execDecodeList, decodeListLength_eq, hflen]
  rfl

theorem exec_decodeList_of_legal {s : State} (hflen : s.flen.toNat ≤ Config.nFL) (hne : s.flen ≠ 0)
    (hlegal : listLegal s s.flen.toNat = true) : exec .decodeList s = .next (s.setPhase (.list 0)) := by
  have hpos : s.flen.toNat ≠ 0 := fun h => hne (BitVec.eq_of_toNat_eq h)
  show execDecodeList s = _
  rw [execDecodeList, decodeListLength_eq, if_pos hflen]
  simp [hlegal, hpos]

theorem engineRun_succ {s t : State} (h : engineStep s = .next t) (n : Nat) :
    engineRun (n + 1) s = engineRun n t := by
  rw [engineRun, h]

theorem engineRun_idle {s : State} (h : s.phase = .idle) (n : Nat) : engineRun n s = .next s := by
  induction n with
  | zero => rfl
  | succ n ih => rw [engineRun_succ (engineStep_idle h), ih]

/-- The match of attempt `k`, if it succeeds. -/
def entryMatch (s : State) (k : Nat) : Option (Nat × List Byte) := (entryString s k).map fun str => (k, str)

/-- The end state of DECODE_LIST's loop by the first match among the attempts left. -/
def listEnd (s : State) : Option (Nat × List Byte) → State
  | some (k, str) => (s.recordMatch (BitVec.ofNat Config.xlen k) (s.flWord k) str).endOk 0
  | none => s.listExhausted

theorem atomicDecodeList_of_ne {s : State} (hne : s.flen ≠ 0) : atomicDecodeList s = listEnd s (firstMatch s) := by
  rw [atomicDecodeList, if_neg hne]
  cases firstMatch s <;> rfl

theorem entryMatch_ok {s : State} {k : Nat} {str : List Byte} (h : decodeEntry s k = some (.ok str)) :
    entryMatch s k = some (k, str) := by
  rw [entryMatch, entryString, h]; rfl

theorem entryMatch_error {s : State} {k : Nat} {e : Err} (h : decodeEntry s k = some (.error e)) :
    entryMatch s k = none := by
  rw [entryMatch, entryString, h]; rfl

/-- With `n` attempts left from `k` on, `n + 1` moves end in the state that the first match among them gives. -/
theorem engineRun_list {s : State} (hflen : s.flen.toNat ≤ Config.nFL)
    (hlegal : ∀ k, k < s.flen.toNat → legalDescriptor (s.flWord k) = true) {n k : Nat} (hk : k + n = s.flen.toNat) :
    engineRun (n + 1) (s.setPhase (.list k)) = .next (listEnd s ((List.range' k n).findSome? (entryMatch s))) := by
  induction n generalizing k with
  | zero =>
    have hexit : engineStep (s.setPhase (.list k)) = .next s.listExhausted := engineStep_list_end rfl hk.ge
    rw [engineRun_succ hexit]
    rfl
  | succ n ih =>
    obtain ⟨r, hr, hstep⟩ := engineStep_list_attempt (s := s) (fpc := k) (by omega) (by omega) (hlegal k (by omega))
    rw [List.range'_succ, List.findSome?_cons]
    cases r with
    | ok str =>
      rw [entryMatch_ok hr, engineRun_succ (hstep.trans (attempt_ok _ _ _)), engineRun_idle rfl]
      rfl
    | error e =>
      rw [entryMatch_error hr, engineRun_succ (hstep.trans (attempt_error_list rfl _ _))]
      exact ih (by omega)

/-- The whole loop. -/
theorem engineRun_list_zero {s : State} (hflen : s.flen.toNat ≤ Config.nFL)
    (hlegal : ∀ k, k < s.flen.toNat → legalDescriptor (s.flWord k) = true) :
    engineRun (s.flen.toNat + 1) (s.setPhase (.list 0)) = .next (listEnd s (firstMatch s)) := by
  rw [engineRun_list hflen hlegal (Nat.zero_add _), ← List.range_eq_range']
  rfl

/-- Settles O47: the refusals, the empty list, and the loop by induction over the attempts left. -/
theorem decodeListRefinesRule : Obligations.DecodeListRefinesRule := by
  refine fun s => ⟨exec_decodeList_of_outside, fun hflen => ⟨?_, fun hlegal => ⟨fun hempty => ?_, fun hne => ?_⟩⟩⟩
  · rintro ⟨k, hk, hbad⟩
    refine exec_decodeList_of_illegal hflen (Bool.eq_false_of_not_eq_true fun hall => ?_)
    exact Bool.false_ne_true (hbad.symm.trans ((listLegal_iff s _).1 hall k hk))
  · exact exec_decodeList_of_empty hempty
  · refine ⟨_, exec_decodeList_of_legal hflen hne ((listLegal_iff s _).2 hlegal), rfl, ?_⟩
    rw [atomicDecodeList_of_ne hne]
    exact engineRun_list_zero hflen hlegal

/-! ### DECODE_LIST against DECODE_ONE (R268) -/

/-- The state in which DECODE_ONE attempts entry `j`. -/
def State.attemptEntry (s : State) (j : Nat) : State := { s with phase := .one, arg0 := BitVec.ofNat 32 j }

/-- DECODE_ONE's attempt of entry `j`: a success exactly where the entry matches. -/
theorem engineStep_attemptEntry {s : State} {j : Nat} (hj : j < Config.nFL)
    (hlegal : legalDescriptor (s.flWord j) = true) :
    (∃ str, entryMatch s j = some (j, str) ∧ engineStep (s.attemptEntry j) =
      .next (((s.attemptEntry j).recordMatch (BitVec.ofNat 32 j) (s.flWord j) str).endOk 0)) ∨
    (∃ e, entryMatch s j = none ∧
      engineStep (s.attemptEntry j) = .next ((s.attemptEntry j).recordNoMatch.endError e)) := by
  have hindex : (BitVec.ofNat 32 j).toNat = j := by
    have hnFL : Config.nFL = 16 := rfl
    rw [BitVec.toNat_ofNat]; omega
  have hattempt := engineStep_one_attempt (s := { s with arg0 := BitVec.ofNat 32 j })
  simp only [hindex] at hattempt
  obtain ⟨r, hr, hstep⟩ := hattempt hj hlegal
  cases r with
  | ok str => exact .inl ⟨str, entryMatch_ok hr, hstep⟩
  | error e => exact .inr ⟨e, entryMatch_error hr, hstep⟩

/-- A first match: entry `j` matches and none before it does. -/
theorem firstMatch_eq_some {s : State} {j : Nat} {str : List Byte} (hj : j < s.flen.toNat)
    (hmatch : entryMatch s j = some (j, str)) (hbefore : ∀ k < j, entryMatch s k = none) :
    firstMatch s = some (j, str) := by
  have hlen : j + (s.flen.toNat - j - 1 + 1) = s.flen.toNat := by omega
  have hsplit : List.range s.flen.toNat = List.range j ++ j :: List.range' (j + 1) (s.flen.toNat - j - 1) := by
    rw [← List.range'_succ, List.range_eq_range', List.range_eq_range', ← hlen, ← List.range'_append_1, Nat.zero_add,
      hlen]
  exact List.findSome?_eq_some_iff.2 ⟨_, j, _, hsplit, hmatch, fun k hk => hbefore k (List.mem_range.1 hk)⟩

/-- Settles O48: DECODE_ONE's attempts tell which entry is the list's first match, and the loop ends with it. -/
theorem decodeListAgreesWithDecodeOne : Obligations.DecodeListAgreesWithDecodeOne := by
  intro s _ hflen hlegal
  have hfails : ∀ k, k < s.flen.toNat → (∀ v, engineStep (s.attemptEntry k) = .next v → v.ok = false) →
      entryMatch s k = none := by
    intro k hk hv
    obtain ⟨str, -, hstep⟩ | ⟨e, hnone, -⟩ := engineStep_attemptEntry (s := s) (by omega) (hlegal k hk)
    · exact absurd (hv _ hstep) (by simp)
    · exact hnone
  refine ⟨_, engineRun_list_zero hflen hlegal, fun j u hj hu hok hbefore => ?_, fun hall => ?_⟩
  · obtain ⟨str, hmatch, hstep⟩ | ⟨e, -, hstep⟩ := engineStep_attemptEntry (s := s) (by omega) (hlegal j hj)
    · cases hstep.symm.trans hu
      rw [firstMatch_eq_some hj hmatch fun k hk => hfails k (by omega) fun v hv => hbefore k v hk hv]
      exact ⟨rfl, rfl, rfl, rfl, rfl⟩
    · cases hstep.symm.trans hu
      exact absurd hok (by simp)
  · have hnone : firstMatch s = none :=
      List.findSome?_eq_none_iff.2 fun k hk =>
        hfails k (List.mem_range.1 hk) fun v hv => hall k v (List.mem_range.1 hk) hv
    rw [hnone]
    rfl

/-! ### The format counter (R40) -/

/-- A move of DECODE_LIST below FLEN that answers a next state: an attempt, or the refusal of an illegal word. -/
theorem engineStep_list_inv {s t : State} {fpc : Nat} (hphase : s.phase = .list fpc) (hfpc : fpc < s.flen.toNat)
    (hstep : engineStep s = .next t) :
    (∃ i r, decodeDescriptor (s.flWord fpc) = .ok i ∧ decodeFormat i s.stream = some r ∧
      attempt (encode i) r s = .next t) ∨
    (∃ e, decodeDescriptor (s.flWord fpc) = .error e ∧ s.endRefused rejDescriptor = t) := by
  have hfetch : fetch s = fetchDescriptor s fpc := by
    unfold fetch; rw [hphase]; exact if_pos hfpc
  rw [engineStep, hfetch] at hstep
  obtain ⟨-, h⟩ | ⟨-, i, hd, h⟩ | ⟨-, ⟨e, hd⟩, h⟩ := fetchDescriptor_cases s fpc <;> rw [h] at hstep
  · cases hstep
  · obtain ⟨r, hr, hexec⟩ := exec_descriptor s (encode_decodeDescriptor hd).1
    exact .inl ⟨i, r, hd, hr, hexec ▸ hstep⟩
  · cases hstep
    exact .inr ⟨e, hd, rfl⟩

/-- Settles O49: a move of DECODE_LIST is a success, a failed attempt, the refusal of an illegal word, or the exit. -/
theorem formatCounterMoves : Obligations.FormatCounterMoves := by
  intro s t fpc hphase hstep
  by_cases hfpc : fpc < s.flen.toNat
  · have hnotEnd : s.flen.toNat ≤ fpc → t.phase = .idle ∧ t.errKind = 2 ∧ t.errInfo0 = s.flen :=
      fun h => absurd hfpc (Nat.not_lt.2 h)
    obtain ⟨i, r, hd, hr, hattempt⟩ | ⟨e, hd, rfl⟩ := engineStep_list_inv hphase hfpc hstep
    · cases r with
      | ok str =>
        rw [attempt_ok, State.attemptIndex_list hphase] at hattempt
        cases hattempt
        refine ⟨.inr rfl, fun h => (by cases h), fun j e _ hj he => ?_, fun _ _ _ _ _ => ⟨rfl, rfl, rfl⟩, hnotEnd⟩
        cases hd.symm.trans hj
        cases hr.symm.trans he
      | error e =>
        rw [attempt_error_list hphase] at hattempt
        cases hattempt
        refine ⟨.inl rfl, fun _ => ⟨rfl, hfpc⟩, fun _ _ _ _ _ => rfl, fun j str _ hj hok => ?_, hnotEnd⟩
        cases hd.symm.trans hj
        cases hr.symm.trans hok
    · refine ⟨.inr rfl, fun h => (by cases h), fun j _ _ hj _ => ?_, fun j _ _ hj _ => ?_, hnotEnd⟩ <;>
        cases hd.symm.trans hj
  · cases (engineStep_list_end hphase (Nat.le_of_not_lt hfpc)).symm.trans hstep
    exact ⟨.inr rfl, fun h => (by cases h), fun _ _ h => absurd h hfpc, fun _ _ h => absurd h hfpc,
      fun _ => ⟨rfl, rfl, rfl⟩⟩

end Sys2Proof.Machine
end

section
/-! PROOFS. What a command can do, said once (60_exceptions.md R305), and what every instruction leaves unchanged. -/

namespace Sys2Proof.Machine

/-! ### The moves that a command can make -/

/-- The states in which the move of a command can end, by the command. -/
inductive CommandEnd (s : State) : Instr → State → Prop where
  | value {i : Instr} (r : Word)
      (hi : i ∈ [.nop, .extractLsb, .extractMsb, .invert, .checkParity, .lrcFinT2, .lrcFinT1]) :
      CommandEnd s i (s.endOk r)
  | accumulated {i : Instr} (v : Byte) (hi : i ∈ [.lrcClr, .lrcPush]) : CommandEnd s i ((s.setLrcAcc v).endOk 0)
  | constructed (hfit : requiredBytes s.arg1.toNat ≤ Config.nFB) :
      CommandEnd s .bsNew
        ((s.setStream s.arg1 (BitVec.ofNat Config.xlen (requiredBytes s.arg1.toNat))).endOk 0)
  | mismatch (required provided : Nat) :
      CommandEnd s .bsNew ((s.setStream 0 0).endError (.lengthMismatch required provided))
  | outOfRange {i : Instr} (hi : i ∈ [.extractLsb, .extractMsb]) : CommandEnd s i (s.endError .outOfRange)
  | operandRefused {i : Instr}
      (hi : i ∈ [.bsNew, .extractLsb, .extractMsb, .invert, .checkParity, .lrcPush, .decodeOne, .decodeList]) :
      CommandEnd s i (s.endRefused rejOperand)
  | descriptorRefused {i : Instr} (hi : i ∈ [.decodeOne, .decodeList]) : CommandEnd s i (s.endRefused rejDescriptor)
  | attemptNext (hflen : s.flen.toNat ≤ Config.nFL) (hindex : s.arg0.toNat < s.flen.toNat)
      (hlegal : legalDescriptor (s.flWord s.arg0.toNat) = true) : CommandEnd s .decodeOne (s.setPhase .one)
  | emptyList : CommandEnd s .decodeList (s.recordNoMatch.endError .noFormatsProvided)
  | listNext (hflen : s.flen.toNat ≤ Config.nFL) (hlegal : listLegal s s.flen.toNat = true) :
      CommandEnd s .decodeList (s.setPhase (.list 0))

theorem commandEnd_bsNew (s : State) : ∃ t, exec .bsNew s = .next t ∧ CommandEnd s .bsNew t := by
  by_cases hprovided : s.arg0.toNat ≤ Config.nFB
  · rw [exec_bsNew_of_le_nFB hprovided]
    by_cases hfit : requiredBytes s.arg1.toNat ≤ s.arg0.toNat
    · rw [constructStream_of_requiredBytes_le s.arg1 s hfit]
      exact ⟨_, rfl, .constructed (hfit.trans hprovided)⟩
    · rw [constructStream_of_lt_requiredBytes s (Nat.lt_of_not_le hfit)]
      exact ⟨_, rfl, .mismatch _ _⟩
  · exact ⟨_, exec_bsNew_of_nFB_lt (Nat.lt_of_not_le hprovided), .operandRefused (by decide)⟩

theorem commandEnd_extract {i : Instr} (hi : i ∈ [.extractLsb, .extractMsb]) (window : Stream → Nat → Nat → Byte)
    (s : State) : CommandEnd s i (s.extractEnd window) := by
  rw [State.extractEnd]
  split_ifs
  · exact .operandRefused (by revert i; decide)
  · exact .outOfRange hi
  · exact .value _ (by revert i; decide)

theorem commandEnd_checkParity (s : State) : ∃ t, exec .checkParity s = .next t ∧ CommandEnd s .checkParity t := by
  show ∃ t, execCheckParity s = .next t ∧ _
  rw [execCheckParity]
  cases checkParityOperands s with
  | none => exact ⟨_, rfl, .operandRefused (by decide)⟩
  | some _ => exact ⟨_, rfl, .value _ (by decide)⟩

theorem commandEnd_decodeOne (s : State) : ∃ t, exec .decodeOne s = .next t ∧ CommandEnd s .decodeOne t := by
  by_cases hdomain : s.flen.toNat ≤ Config.nFL ∧ s.arg0.toNat < s.flen.toNat
  · obtain ⟨hflen, hindex⟩ := hdomain
    cases hlegal : legalDescriptor (s.flWord s.arg0.toNat) with
    | true => exact ⟨_, exec_decodeOne_of_legal hflen hindex hlegal, .attemptNext hflen hindex hlegal⟩
    | false => exact ⟨_, exec_decodeOne_of_illegal hflen hindex hlegal, .descriptorRefused (by decide)⟩
  · exact ⟨_, exec_decodeOne_of_outside (by omega), .operandRefused (by decide)⟩

theorem commandEnd_decodeList (s : State) : ∃ t, exec .decodeList s = .next t ∧ CommandEnd s .decodeList t := by
  by_cases hflen : s.flen.toNat ≤ Config.nFL
  · by_cases hempty : s.flen = 0
    · exact ⟨_, exec_decodeList_of_empty hempty, .emptyList⟩
    · cases hlegal : listLegal s s.flen.toNat with
      | true => exact ⟨_, exec_decodeList_of_legal hflen hempty hlegal, .listNext hflen hlegal⟩
      | false => exact ⟨_, exec_decodeList_of_illegal hflen hlegal, .descriptorRefused (by decide)⟩
  · exact ⟨_, exec_decodeList_of_outside (Nat.lt_of_not_le hflen), .operandRefused (by decide)⟩

/-- Every command answers a next state, in one of its own ends. -/
theorem exec_command {i : Instr} (hi : i.isCommand = true) (s : State) : ∃ t, exec i s = .next t ∧ CommandEnd s i t := by
  cases i
  case nop => exact ⟨_, exec_nop s, .value _ (by decide)⟩
  case bsNew => exact commandEnd_bsNew s
  case extractLsb => exact ⟨_, exec_extractLsb s, commandEnd_extract (by decide) _ s⟩
  case extractMsb => exact ⟨_, exec_extractMsb s, commandEnd_extract (by decide) _ s⟩
  case invert =>
    by_cases h : s.arg0.toNat < 256
    · exact ⟨_, exec_invert_of_lt h, .value _ (by decide)⟩
    · exact ⟨_, exec_invert_of_le (Nat.le_of_not_lt h), .operandRefused (by decide)⟩
  case checkParity => exact commandEnd_checkParity s
  case lrcClr => exact ⟨_, rfl, .accumulated 0 (by decide)⟩
  case lrcPush =>
    by_cases h : s.arg0.toNat < 256
    · exact ⟨_, exec_lrcPush_of_lt h, .accumulated _ (by decide)⟩
    · exact ⟨_, exec_lrcPush_of_le (Nat.le_of_not_lt h), .operandRefused (by decide)⟩
  case lrcFinT2 => exact ⟨_, rfl, .value _ (by decide)⟩
  case lrcFinT1 => exact ⟨_, rfl, .value _ (by decide)⟩
  case decodeOne => exact commandEnd_decodeOne s
  case decodeList => exact commandEnd_decodeList s
  all_goals cases hi

/-- Every instruction answers a next state: a command one of its ends, a descriptor the end of its attempt. -/
theorem exec_cases (i : Instr) (s : State) :
    (i.isCommand = true ∧ ∃ t, exec i s = .next t ∧ CommandEnd s i t) ∨
    (i.isCommand = false ∧ ∃ r, decodeFormat i s.stream = some r ∧ exec i s = attempt (encode i) r s) := by
  cases hi : i.isCommand with
  | true => exact .inl ⟨rfl, exec_command hi s⟩
  | false => exact .inr ⟨rfl, exec_descriptor s hi⟩

/-! ### The frame of an instruction (R21, R27, R30, R71, R166, R304) -/

/-- What every instruction leaves unchanged. -/
structure EngineKeeps (s t : State) : Prop where
  fb : t.fb = s.fb
  fl : t.fl = s.fl
  flen : t.flen = s.flen
  arg0 : t.arg0 = s.arg0
  arg1 : t.arg1 = s.arg1
  inputs : t.inputs = s.inputs
  readData : t.readData = s.readData
  resetDraw : t.resetDraw = s.resetDraw

theorem EngineKeeps.fbByte {s t : State} (h : EngineKeeps s t) (a : Nat) : t.fbByte a = s.fbByte a := by
  rw [State.fbByte, State.fbByte, h.fb, h.resetDraw]

theorem EngineKeeps.flWord {s t : State} (h : EngineKeeps s t) (k : Nat) : t.flWord k = s.flWord k := by
  rw [State.flWord, State.flWord, h.fl, h.resetDraw]

theorem CommandEnd.keeps {s t : State} {i : Instr} (h : CommandEnd s i t) : EngineKeeps s t := by
  cases h <;> exact ⟨rfl, rfl, rfl, rfl, rfl, rfl, rfl, rfl⟩

/-- LRCACC, the stream and the match registers with OUT, each but for the commands that write them. -/
theorem CommandEnd.frame {s t : State} {i : Instr} (h : CommandEnd s i t) :
    (i ≠ .lrcClr → i ≠ .lrcPush → t.lrcAcc = s.lrcAcc) ∧
    (i ≠ .bsNew → t.sbits = s.sbits ∧ t.slen = s.slen) ∧
    (i ≠ .decodeList → SameMatch t s ∧ (∀ a, t.outByte a = s.outByte a) ∧ t.draws = s.draws) := by
  cases h
  case accumulated v hi =>
    refine ⟨fun hclr hpush => ?_, fun _ => ⟨rfl, rfl⟩, fun _ => ⟨⟨rfl, rfl, rfl, rfl⟩, fun _ => rfl, rfl⟩⟩
    simp [hclr, hpush] at hi
  case constructed => exact ⟨fun _ _ => rfl, fun h => absurd rfl h, fun _ => ⟨⟨rfl, rfl, rfl, rfl⟩, fun _ => rfl, rfl⟩⟩
  case mismatch => exact ⟨fun _ _ => rfl, fun h => absurd rfl h, fun _ => ⟨⟨rfl, rfl, rfl, rfl⟩, fun _ => rfl, rfl⟩⟩
  case emptyList => exact ⟨fun _ _ => rfl, fun _ => ⟨rfl, rfl⟩, fun h => absurd rfl h⟩
  all_goals exact ⟨fun _ _ => rfl, fun _ => ⟨rfl, rfl⟩, fun _ => ⟨⟨rfl, rfl, rfl, rfl⟩, fun _ => rfl, rfl⟩⟩

/-- The attempts write OUT, the match registers and the record, or the phase. -/
theorem attempt_keeps {d : Word} {r : DecodeResult} {s t : State} (h : attempt d r s = .next t) :
    EngineKeeps s t ∧ t.lrcAcc = s.lrcAcc ∧ t.sbits = s.sbits ∧ t.slen = s.slen := by
  obtain ⟨str, -, hok⟩ | ⟨e, -, hfail⟩ := attempt_cases d r s
  · cases hok.symm.trans h
    exact ⟨⟨rfl, rfl, rfl, rfl, rfl, rfl, rfl, rfl⟩, rfl, rfl, rfl⟩
  · cases hfail.symm.trans h
    obtain ⟨fpc, -, hnext⟩ | ⟨-, hend⟩ := s.attemptFailed_cases e
    · rw [hnext]
      exact ⟨⟨rfl, rfl, rfl, rfl, rfl, rfl, rfl, rfl⟩, rfl, rfl, rfl⟩
    · rw [hend]
      exact ⟨⟨rfl, rfl, rfl, rfl, rfl, rfl, rfl, rfl⟩, rfl, rfl, rfl⟩

theorem exec_keeps {i : Instr} {s t : State} (h : exec i s = .next t) : EngineKeeps s t := by
  obtain ⟨-, t', ht', hend⟩ | ⟨-, r, -, hattempt⟩ := exec_cases i s
  · cases ht'.symm.trans h
    exact hend.keeps
  · exact (attempt_keeps (hattempt ▸ h)).1

/-- Settles O51: the common frame, and the three parts that depend on the instruction. -/
theorem engineFrame : Obligations.EngineFrame := by
  intro i s t hexec
  have hkeeps := exec_keeps hexec
  refine ⟨hkeeps.fb, hkeeps.fl, hkeeps.fbByte, hkeeps.flWord, hkeeps.flen, hkeeps.arg0, hkeeps.arg1, hkeeps.inputs,
    hkeeps.readData, hkeeps.resetDraw, ?_⟩
  obtain ⟨hi, t', ht', hend⟩ | ⟨hi, r, -, hattempt⟩ := exec_cases i s
  · cases ht'.symm.trans hexec
    obtain ⟨hlrc, hstream, hmatch⟩ := hend.frame
    exact ⟨hlrc, hstream, fun _ => hmatch⟩
  · obtain ⟨-, hlrc, hstream⟩ := attempt_keeps (hattempt ▸ hexec)
    exact ⟨fun _ _ => hlrc, fun _ => hstream, fun hcommand => by simp [hi] at hcommand⟩

end Sys2Proof.Machine
end

section
/-! PROOFS. How a command can end (60_exceptions.md R305), the decode commands followed through their runs. -/

namespace Sys2Proof.Machine

/-- The record of a success. -/
def Succeeds (u : State) : Prop := u.phase = .idle ∧ u.done = true ∧ u.ok = true ∧ u.rej = false ∧ u.errKind = 0

/-- The record of an error of one of the kinds. -/
def FailsWith (u : State) (kinds : List Word) : Prop :=
  u.phase = .idle ∧ u.done = true ∧ u.ok = false ∧ u.rej = false ∧ u.res = 0 ∧ u.errKind ∈ kinds

/-- The record of a refusal with one of the codes. -/
def RefusedWith (u : State) (codes : List (BitVec 8)) : Prop :=
  u.phase = .idle ∧ u.done = true ∧ u.ok = false ∧ u.rej = true ∧ u.errKind = 0 ∧ u.res = 0 ∧ u.rejCode ∈ codes

theorem succeeds_endOk (s : State) (r : Word) : Succeeds (s.endOk r) := ⟨rfl, rfl, rfl, rfl, rfl⟩

theorem failsWith_endError {e : Err} {kinds : List Word} (h : e.code ∈ kinds) (s : State) :
    FailsWith (s.endError e) kinds :=
  ⟨rfl, rfl, rfl, rfl, rfl, h⟩

theorem refusedWith_endRefused {c : BitVec 8} {codes : List (BitVec 8)} (h : c ∈ codes) (s : State) :
    RefusedWith (s.endRefused c) codes :=
  ⟨rfl, rfl, rfl, rfl, rfl, rfl, h⟩

/-! ### The ends of the decode commands' runs -/

theorem decodeEntry_answers {s : State} {k : Nat} {r : DecodeResult} (h : decodeEntry s k = some r) :
    Answers [2, 3, 4, 5, 6, 7, 8, 9] s.sbits.toNat r := by
  unfold decodeEntry at h
  split at h
  next i _ => exact decodeFormat_answers h
  next => cases h

/-- A decoder's error kinds as words. -/
theorem Err.code_mem_of_toNat {e : Err} (h : e.code.toNat ∈ [2, 3, 4, 5, 6, 7, 8, 9]) :
    e.code ∈ ([2, 3, 4, 5, 6, 7, 8, 9] : List Word) := by
  cases e <;> simp_all [Err.code]

theorem atomicDecodeOne_outcome {s : State} {r : DecodeResult} (hr : decodeEntry s s.arg0.toNat = some r) :
    Succeeds (atomicDecodeOne s) ∨ FailsWith (atomicDecodeOne s) [2, 3, 4, 5, 6, 7, 8, 9] := by
  rw [atomicDecodeOne, hr]
  cases r with
  | ok str => exact .inl (succeeds_endOk _ _)
  | error e => exact .inr (failsWith_endError (Err.code_mem_of_toNat ((decodeEntry_answers hr).1 e rfl)) _)

theorem listEnd_outcome (s : State) (m : Option (Nat × List Byte)) :
    Succeeds (listEnd s m) ∨ FailsWith (listEnd s m) [2] := by
  cases m with
  | some p => exact .inl (succeeds_endOk _ _)
  | none => exact .inr (failsWith_endError (e := .noValidFormat s.flen) List.mem_cons_self _)

theorem engineStep_one_outcome {s : State} (hk : s.arg0.toNat < Config.nFL)
    (hlegal : legalDescriptor (s.flWord s.arg0.toNat) = true) :
    ∃ u, engineStep (s.setPhase .one) = .next u ∧ (Succeeds u ∨ FailsWith u [2, 3, 4, 5, 6, 7, 8, 9]) := by
  obtain ⟨r, hr, -⟩ := engineStep_one_attempt hk hlegal
  exact ⟨_, engineStep_one_atomic hk hlegal, atomicDecodeOne_outcome hr⟩

/-! ### The table of R305 -/

section
variable {s t : State} {i : Instr} (hend : CommandEnd s i t)
include hend

theorem CommandEnd.succeeds (hi : i ∈ [.nop, .lrcClr, .lrcFinT2, .lrcFinT1]) : Succeeds t := by
  cases hend
  case value => exact succeeds_endOk _ _
  case accumulated => exact succeeds_endOk _ _
  case constructed | mismatch | attemptNext | emptyList | listNext => exact absurd hi (by decide)
  all_goals
    exfalso
    revert i
    decide

theorem CommandEnd.byteCommand (hi : i ∈ [.invert, .checkParity, .lrcPush]) : Succeeds t ∨ RefusedWith t [2] := by
  cases hend
  case value => exact .inl (succeeds_endOk _ _)
  case accumulated => exact .inl (succeeds_endOk _ _)
  case operandRefused => exact .inr (refusedWith_endRefused List.mem_cons_self _)
  case constructed | mismatch | attemptNext | emptyList | listNext => exact absurd hi (by decide)
  all_goals
    exfalso
    revert i
    decide

theorem CommandEnd.bsNew (hi : i = .bsNew) : Succeeds t ∨ FailsWith t [16] ∨ RefusedWith t [2] := by
  subst hi
  cases hend
  case constructed => exact .inl (succeeds_endOk _ _)
  case mismatch a b => exact .inr (.inl (failsWith_endError (e := .lengthMismatch a b) List.mem_cons_self _))
  case operandRefused => exact .inr (.inr (refusedWith_endRefused List.mem_cons_self _))
  all_goals
    next hi => exact absurd hi (by decide)

theorem CommandEnd.extraction (hi : i ∈ [.extractLsb, .extractMsb]) :
    Succeeds t ∨ FailsWith t [17] ∨ RefusedWith t [2] := by
  cases hend
  case value => exact .inl (succeeds_endOk _ _)
  case outOfRange => exact .inr (.inl (failsWith_endError (e := .outOfRange) List.mem_cons_self _))
  case operandRefused => exact .inr (.inr (refusedWith_endRefused List.mem_cons_self _))
  case constructed | mismatch | attemptNext | emptyList | listNext => exact absurd hi (by decide)
  all_goals
    exfalso
    revert i
    decide

theorem CommandEnd.decodeOne (hi : i = .decodeOne) :
    RefusedWith t [2, 3] ∨
      (t.phase = .one ∧ ∃ u, engineStep t = .next u ∧ (Succeeds u ∨ FailsWith u [2, 3, 4, 5, 6, 7, 8, 9])) := by
  subst hi
  cases hend
  case operandRefused => exact .inl (refusedWith_endRefused (by decide) _)
  case descriptorRefused => exact .inl (refusedWith_endRefused (by decide) _)
  case attemptNext hflen hindex hlegal => exact .inr ⟨rfl, engineStep_one_outcome (by omega) hlegal⟩
  all_goals
    next hi => exact absurd hi (by decide)

theorem CommandEnd.decodeList (hi : i = .decodeList) :
    RefusedWith t [2, 3] ∨ FailsWith t [1] ∨
      (t.phase = .list 0 ∧ ∃ u, engineRun (t.flen.toNat + 1) t = .next u ∧ (Succeeds u ∨ FailsWith u [2])) := by
  subst hi
  cases hend
  case operandRefused => exact .inl (refusedWith_endRefused (by decide) _)
  case descriptorRefused => exact .inl (refusedWith_endRefused (by decide) _)
  case emptyList => exact .inr (.inl (failsWith_endError (e := .noFormatsProvided) List.mem_cons_self _))
  case listNext hflen hlegal =>
    exact .inr (.inr ⟨rfl, _, engineRun_list_zero hflen ((listLegal_iff s _).1 hlegal), listEnd_outcome s _⟩)
  all_goals
    next hi => exact absurd hi (by decide)

end

/-- Settles O52: each row of the table from the ends of its command. -/
theorem commandOutcomes : Obligations.CommandOutcomes := by
  intro i s hi
  obtain ⟨t, ht, hend⟩ := exec_command hi s
  exact ⟨t, ht, hend.succeeds, hend.byteCommand, hend.bsNew, hend.extraction, hend.decodeOne, hend.decodeList⟩

end Sys2Proof.Machine
end

section
/-! PROOFS. The machine's invariant: every step keeps it, no step stops the machine, and every command ends. -/

namespace Sys2Proof.Machine

/-! ### The invariant's parts -/

/-- The clauses of the invariant that speak of the arrays, the stream and the match, and not of the record or the phase. -/
def State.DataWf (s : State) : Prop := s.arraysWf ∧ s.streamWf ∧ s.outWf ∧ s.matchWf ∧ s.drawsWf

/-- No command has left a record: after reset and while a command runs. -/
def State.RecordCleared (s : State) : Prop :=
  s.done = false ∧ s.ok = false ∧ s.rej = false ∧ s.rejCode = 0 ∧ s.res = 0 ∧
    s.errKind = 0 ∧ s.errInfo0 = 0 ∧ s.errInfo1 = 0

theorem inv_iff {s : State} : s.Inv ↔ s.DataWf ∧ s.recordWf ∧ s.sequencerWf :=
  ⟨fun ⟨harrays, hstream, hout, hmatch, hrecord, hseq, hdraws⟩ =>
      ⟨⟨harrays, hstream, hout, hmatch, hdraws⟩, hrecord, hseq⟩,
    fun ⟨⟨harrays, hstream, hout, hmatch, hdraws⟩, hrecord, hseq⟩ =>
      ⟨harrays, hstream, hout, hmatch, hrecord, hseq, hdraws⟩⟩

theorem recordWf_of_busy {s : State} (h : s.busy = true) : s.recordWf ↔ s.RecordCleared := by
  rw [State.recordWf, if_pos h, State.RecordCleared]

theorem sequencerWf_of_idle {s : State} (h : s.phase = .idle) : s.sequencerWf := by
  rw [State.sequencerWf, h]; trivial

theorem sequencerWf_one {s : State} (h : s.phase = .one) :
    s.sequencerWf ↔ s.flen.toNat ≤ Config.nFL ∧ s.arg0.toNat < s.flen.toNat ∧
      legalDescriptor (s.flWord s.arg0.toNat) = true := by
  rw [State.sequencerWf, h]

theorem sequencerWf_list {s : State} {fpc : Nat} (h : s.phase = .list fpc) :
    s.sequencerWf ↔ s.flen.toNat ≤ Config.nFL ∧ fpc ≤ s.flen.toNat ∧ listLegal s s.flen.toNat = true := by
  rw [State.sequencerWf, h]

/-! ### The ends of a command keep the invariant (R267, R270) -/

theorem State.DataWf.endOk {s : State} (h : s.DataWf) (r : Word) : (s.endOk r).Inv :=
  inv_iff.2 ⟨h, .inr (.inl ⟨rfl, rfl, rfl, rfl, rfl, rfl, rfl⟩), trivial⟩

theorem Err.code_mem (e : Err) : e.code ∈ ([1, 2, 3, 4, 5, 6, 7, 8, 9, 16, 17] : List Word) := by
  cases e <;> simp [Err.code]

theorem State.DataWf.endError {s : State} (h : s.DataWf) (e : Err) : (s.endError e).Inv :=
  inv_iff.2 ⟨h, .inr (.inr (.inl ⟨rfl, rfl, rfl, rfl, rfl, e.code_mem⟩)), trivial⟩

theorem State.DataWf.endRefused {s : State} (h : s.DataWf) {c : BitVec 8} (hc : c ∈ [1, 2, 3]) : (s.endRefused c).Inv :=
  inv_iff.2 ⟨h, .inr (.inr (.inr ⟨rfl, rfl, rfl, hc, rfl, rfl, rfl, rfl⟩)), trivial⟩

/-- Writing a stream of no more bits than FB holds. -/
theorem State.DataWf.setStream {s : State} (h : s.DataWf) {bits : Word} (hfit : requiredBytes bits.toNat ≤ Config.nFB) :
    (s.setStream bits (BitVec.ofNat Config.xlen (requiredBytes bits.toNat))).DataWf := by
  obtain ⟨harrays, -, hout, hmatch, hdraws⟩ := h
  have hbytes : (BitVec.ofNat Config.xlen (requiredBytes bits.toNat)).toNat = requiredBytes bits.toNat :=
    Nat.mod_eq_of_lt (hfit.trans_lt (by decide))
  exact ⟨harrays, ⟨hbytes, hbytes.trans_le hfit⟩, hout, hmatch, hdraws⟩

theorem State.DataWf.emptyStream {s : State} (h : s.DataWf) : (s.setStream 0 0).DataWf :=
  h.setStream (bits := 0) (by decide)

theorem State.DataWf.setLrcAcc {s : State} (h : s.DataWf) (v : Byte) : (s.setLrcAcc v).DataWf := h

theorem State.DataWf.recordNoMatch {s : State} (h : s.DataWf) : s.recordNoMatch.DataWf := by
  obtain ⟨harrays, hstream, -, -, hreset, -⟩ := h
  exact ⟨harrays, hstream, ⟨rfl, Nat.zero_le _⟩, .inl ⟨rfl, rfl, rfl⟩, Nat.lt_succ_of_lt hreset, Nat.lt_succ_self _⟩

theorem streamWf_of_empty {s : State} (hsbits : s.sbits = 0) (hslen : s.slen = 0) : s.streamWf := by
  rw [State.streamWf, hsbits, hslen]
  decide

/-- The stream holds no more bits than OUT holds characters (R133, U8). -/
theorem State.streamWf.sbits_le {s : State} (h : s.streamWf) : s.sbits.toNat ≤ Config.nOUT := by
  obtain ⟨hslen, hbytes⟩ := h
  have hnFB : Config.nFB = 256 := rfl
  have hnOUT : Config.nOUT = 2048 := rfl
  unfold requiredBytes at hslen
  omega

/-- Recording a string that a decoder answered, under a legal descriptor of FL. -/
theorem State.DataWf.recordMatch {s : State} (h : s.DataWf) {idx fmt : Word} {str : List Byte}
    (hidx : idx.toNat < Config.nFL) (hfmt : legalDescriptor fmt = true) (hpos : 1 ≤ str.length)
    (hlen : str.length ≤ s.sbits.toNat) : (s.recordMatch idx fmt str).DataWf := by
  obtain ⟨harrays, hstream, -, -, hreset, -⟩ := h
  have hfits : str.length ≤ Config.nOUT := hlen.trans hstream.sbits_le
  have houtLen : (BitVec.ofNat Config.xlen str.length).toNat = str.length :=
    Nat.mod_eq_of_lt (hfits.trans_lt (by decide))
  have hne : BitVec.ofNat Config.xlen str.length ≠ 0 := by
    intro hzero
    have hzeroLen : str.length = 0 := houtLen.symm.trans (congrArg BitVec.toNat hzero)
    omega
  exact ⟨harrays, hstream, ⟨houtLen, hfits⟩, .inr ⟨hne, hidx, hfmt⟩, Nat.lt_succ_of_lt hreset, Nat.lt_succ_self _⟩

/-! ### The moves of the engine keep the invariant -/

/-- A command's move, from a state whose record the prologue has cleared. -/
theorem CommandEnd.inv {s t : State} {i : Instr} (hend : CommandEnd s i t) (hdata : s.DataWf) (hcleared : s.RecordCleared) :
    t.Inv := by
  cases hend
  case value => exact hdata.endOk _
  case accumulated v _ => exact (hdata.setLrcAcc v).endOk 0
  case constructed hfit => exact (hdata.setStream hfit).endOk 0
  case mismatch => exact hdata.emptyStream.endError _
  case outOfRange => exact hdata.endError _
  case operandRefused => exact hdata.endRefused (by decide)
  case descriptorRefused => exact hdata.endRefused (by decide)
  case attemptNext hflen hindex hlegal => exact inv_iff.2 ⟨hdata, hcleared, hflen, hindex, hlegal⟩
  case emptyList => exact hdata.recordNoMatch.endError _
  case listNext hflen hlegal => exact inv_iff.2 ⟨hdata, hcleared, hflen, Nat.zero_le _, hlegal⟩

/-- The engine's next move attempts entry `k`: DECODE_ONE's ARG0, or DECODE_LIST's FPC below FLEN. -/
def State.Attempting (s : State) (k : Nat) : Prop :=
  s.phase = .one ∧ k = s.arg0.toNat ∨ s.phase = .list k ∧ k < s.flen.toNat

/-- The invariant keeps an attempt inside FL and on a legal word. -/
theorem State.Inv.attempting {s : State} (h : s.Inv) {k : Nat} (hk : s.Attempting k) :
    k < Config.nFL ∧ k < s.flen.toNat ∧ legalDescriptor (s.flWord k) = true ∧ s.RecordCleared ∧
      s.attemptIndex.toNat = k := by
  obtain ⟨-, hrecord, hseq⟩ := inv_iff.1 h
  obtain ⟨hphase, rfl⟩ | ⟨hphase, hlt⟩ := hk
  · obtain ⟨hflen, hindex, hlegal⟩ := (sequencerWf_one hphase).1 hseq
    have hbusy : s.busy = true := s.busy_eq_true_iff.2 (by simp [hphase])
    exact ⟨by omega, hindex, hlegal, (recordWf_of_busy hbusy).1 hrecord, by rw [State.attemptIndex_one hphase]⟩
  · obtain ⟨hflen, -, hlegal⟩ := (sequencerWf_list hphase).1 hseq
    have hbusy : s.busy = true := s.busy_eq_true_iff.2 (by simp [hphase])
    have hnFL : Config.nFL = 16 := rfl
    refine ⟨by omega, hlt, (listLegal_iff s _).1 hlegal k hlt, (recordWf_of_busy hbusy).1 hrecord, ?_⟩
    rw [State.attemptIndex_list hphase, BitVec.toNat_ofNat, Nat.mod_eq_of_lt (by simp only [Config.xlen]; omega)]

/-- A failed attempt moves FPC on within the list, or ends DECODE_ONE. -/
theorem State.Inv.of_attemptFailed {s : State} (h : s.Inv) {k : Nat} (hk : s.Attempting k) (e : Err) :
    (s.attemptFailed e).Inv := by
  obtain ⟨hdata, -, hseq⟩ := inv_iff.1 h
  obtain ⟨-, -, -, hcleared, -⟩ := h.attempting hk
  obtain ⟨fpc, hphase, hnext⟩ | ⟨-, hend⟩ := s.attemptFailed_cases e
  · obtain ⟨hflen, -, hlegal⟩ := (sequencerWf_list hphase).1 hseq
    have hlt : fpc + 1 ≤ s.flen.toNat := by
      obtain ⟨hone, -⟩ | ⟨hlist, hlt⟩ := hk
      · cases hone.symm.trans hphase
      · cases hlist.symm.trans hphase
        exact hlt
    rw [hnext]
    exact inv_iff.2 ⟨hdata, hcleared, hflen, hlt, hlegal⟩
  · rw [hend]
    exact hdata.recordNoMatch.endError e

/-- An attempt of the word fetched keeps the invariant. -/
theorem State.Inv.of_attempt {s t : State} (h : s.Inv) {k : Nat} (hk : s.Attempting k) {i : Instr} {r : DecodeResult}
    (hd : decodeDescriptor (s.flWord k) = .ok i) (hr : decodeFormat i s.stream = some r)
    (ht : attempt (encode i) r s = .next t) : t.Inv := by
  obtain ⟨hdata, -, -⟩ := inv_iff.1 h
  obtain ⟨hnFL, -, hlegal, -, hindex⟩ := h.attempting hk
  obtain ⟨-, -, hword⟩ := encode_decodeDescriptor hd
  obtain ⟨str, rfl, hok⟩ | ⟨e, -, hfail⟩ := attempt_cases (encode i) r s
  · cases hok.symm.trans ht
    obtain ⟨hpos, hlen⟩ := (decodeFormat_answers hr).2 str rfl
    exact (hdata.recordMatch (hindex ▸ hnFL) (hword.symm ▸ hlegal) hpos hlen).endOk 0
  · cases hfail.symm.trans ht
    exact h.of_attemptFailed hk e

/-- From a state of the invariant the engine's move is one of five: idle, a command, a refused word, an attempt of a
descriptor, or DECODE_LIST's exit. -/
theorem State.Inv.move_cases {s : State} (h : s.Inv) :
    (s.phase = .idle ∧ engineStep s = .next s) ∨
    (∃ c i t, s.phase = .command c ∧ decodeCommand c = .ok i ∧ engineStep s = .next t ∧ CommandEnd s i t) ∨
    (∃ c e, s.phase = .command c ∧ decodeCommand c = .error e ∧ engineStep s = .next (s.endRefused rejOpcode)) ∨
    (∃ k i r, s.Attempting k ∧ decodeDescriptor (s.flWord k) = .ok i ∧ decodeFormat i s.stream = some r ∧
      engineStep s = attempt (encode i) r s) ∨
    (∃ fpc, s.phase = .list fpc ∧ s.flen.toNat ≤ fpc ∧ engineStep s = .next s.listExhausted) := by
  obtain hidle | ⟨c, i, hphase, hd, hstep⟩ | ⟨c, e, hphase, hd, hstep⟩ | ⟨k, i, hk, -, hd, hstep⟩ |
    ⟨k, hk, -, ⟨e, hd⟩, -⟩ | ⟨k, hk, hnFL, -⟩ | hexit := engineStep_cases s
  · exact .inl hidle
  · obtain ⟨t, ht, hend⟩ := exec_command (encode_decodeCommand hd).1 s
    exact .inr (.inl ⟨c, i, t, hphase, hd, hstep.trans ht, hend⟩)
  · exact .inr (.inr (.inl ⟨c, e, hphase, hd, hstep⟩))
  · obtain ⟨r, hr, hexec⟩ := exec_descriptor s (encode_decodeDescriptor hd).1
    exact .inr (.inr (.inr (.inl ⟨k, i, r, hk, hd, hr, hstep.trans hexec⟩)))
  · obtain ⟨-, -, hlegal, -⟩ := h.attempting hk
    obtain ⟨i, hi⟩ := legalDescriptor_iff.1 hlegal
    cases hd.symm.trans hi
  · obtain ⟨hlt, -⟩ := h.attempting hk
    omega
  · exact .inr (.inr (.inr (.inr hexit)))

theorem State.Inv.of_engineStep {s t : State} (h : s.Inv) (hstep : engineStep s = .next t) : t.Inv := by
  obtain ⟨hdata, hrecord, -⟩ := inv_iff.1 h
  obtain ⟨-, hidle⟩ | ⟨c, i, t', hphase, -, ht', hend⟩ | ⟨c, e, -, -, hrefused⟩ | ⟨k, i, r, hk, hd, hr, hattempt⟩ |
    ⟨fpc, -, -, hexit⟩ := h.move_cases
  · cases hidle.symm.trans hstep
    exact h
  · cases ht'.symm.trans hstep
    have hbusy : s.busy = true := s.busy_eq_true_iff.2 (by simp [hphase])
    exact hend.inv hdata ((recordWf_of_busy hbusy).1 hrecord)
  · cases hrefused.symm.trans hstep
    exact hdata.endRefused (by decide)
  · exact h.of_attempt hk hd hr (hattempt.symm.trans hstep)
  · cases hexit.symm.trans hstep
    exact hdata.recordNoMatch.endError _

/-! ### The host's accesses and reset keep the invariant -/

theorem State.Inv.hostRead {s : State} (h : s.Inv) (addr : Nat) : (s.hostRead addr).Inv := by
  obtain ⟨⟨harrays, hstream, hout, hmatch, hreset, houtDraw⟩, hrecord, hseq⟩ := inv_iff.1 h
  obtain ⟨-, -, hopen⟩ | ⟨-, hview⟩ := s.hostRead_cases addr
  · rw [hopen]
    have hdraws := And.intro (Nat.lt_succ_of_lt hreset) (Nat.lt_succ_of_lt houtDraw)
    exact inv_iff.2 ⟨⟨harrays, hstream, hout, hmatch, hdraws⟩, hrecord, hseq⟩
  · rw [hview]
    exact h

/-- A write that an idle block takes: it starts a command, or stores inside one array or register. -/
theorem State.Inv.hostStore {s : State} (h : s.Inv) (hidle : s.busy = false) {addr : Nat} (data : Word) :
    (s.hostStore (hostReg addr) data).Inv := by
  have hphase := s.busy_eq_false_iff.1 hidle
  obtain ⟨hdata, hrecord, -⟩ := inv_iff.1 h
  obtain ⟨harrays, hstream, hout, hmatch, hdraws⟩ := id hdata
  obtain ⟨hfl, hfb, -⟩ := hostReg_bounds addr
  cases hreg : hostReg addr
  case cmd => exact inv_iff.2 ⟨hdata, ⟨rfl, rfl, rfl, rfl, rfl, rfl, rfl, rfl⟩, trivial⟩
  case arg0 => exact inv_iff.2 ⟨hdata, hrecord, sequencerWf_of_idle hphase⟩
  case arg1 => exact inv_iff.2 ⟨hdata, hrecord, sequencerWf_of_idle hphase⟩
  case flen => exact inv_iff.2 ⟨hdata, hrecord, sequencerWf_of_idle hphase⟩
  case fl i =>
    have harrays' : (s.writeFL i data).arraysWf := ⟨harrays.1, s.writeFL_fl_wf data harrays.2 (hfl i hreg)⟩
    exact inv_iff.2 ⟨⟨harrays', hstream, hout, hmatch, hdraws⟩, hrecord, sequencerWf_of_idle hphase⟩
  case fb i =>
    have harrays' : (s.writeFB i (data.extractLsb' 0 8)).arraysWf :=
      ⟨s.writeFB_fb_wf _ harrays.1 (hfb i hreg), harrays.2⟩
    exact inv_iff.2 ⟨⟨harrays', streamWf_of_empty rfl rfl, hout, hmatch, hdraws⟩, hrecord, sequencerWf_of_idle hphase⟩
  all_goals exact h

theorem State.Inv.hostAccess {s : State} (h : s.Inv) (a : HostAccess) : (s.hostAccess a).Inv := by
  cases a with
  | read addr => exact h.hostRead addr
  | write addr data =>
    obtain ⟨-, hdropped⟩ | ⟨hidle, hstore⟩ := s.hostWrite_cases addr data
    · rw [State.hostAccess, hdropped]
      exact h
    · rw [State.hostAccess, hstore]
      exact h.hostStore hidle data

/-- The reset state with any schedule and read data, and draws older than the next: nothing is listed, the stream and the
string are empty, and no command has run. -/
theorem inv_reset_with (inputs : List Input) (readData : Word) {resetDraw outDraw draws : Nat} (hreset : resetDraw < draws)
    (hout : outDraw < draws) :
    ({ State.reset with
      inputs := inputs, readData := readData, resetDraw := resetDraw, outDraw := outDraw, draws := draws } : State).Inv :=
  inv_iff.2 ⟨⟨State.reset_memory_wf, streamWf_of_empty rfl rfl, ⟨rfl, Nat.zero_le _⟩, .inl ⟨rfl, rfl, rfl⟩, hreset, hout⟩,
    .inl ⟨rfl, rfl, rfl, rfl, rfl, rfl, rfl, rfl⟩, trivial⟩

/-- Settles O53: the reset state with its own draws. -/
theorem invariantAtReset : Obligations.InvariantAtReset :=
  inv_reset_with [] 0 Nat.zero_lt_one Nat.zero_lt_one

/-- Reset draws anew from any state (R320, log 6). -/
theorem inv_hostReset (s : State) : s.hostReset.Inv :=
  inv_reset_with s.inputs s.readData (Nat.lt_succ_self _) (Nat.lt_succ_self _)

/-- The invariant does not speak of the schedule. -/
theorem State.Inv.withInputs {s : State} (h : s.Inv) (rest : List Input) : ({ s with inputs := rest } : State).Inv := h

/-- Settles O54: the engine's moves, the host's accesses and reset, each by its own lemma. -/
theorem everyStepKeepsInvariant : Obligations.EveryStepKeepsInvariant := by
  intro s t h hstep
  obtain ⟨-, heq⟩ | ⟨rest, -, heq⟩ | ⟨a, rest, -, heq⟩ | ⟨rest, -, heq⟩ := step_cases s
  · exact h.of_engineStep (heq.symm.trans hstep)
  · exact (h.withInputs rest).of_engineStep (heq.symm.trans hstep)
  · cases heq.symm.trans hstep
    exact (h.withInputs rest).hostAccess a
  · cases heq.symm.trans hstep
    exact inv_hostReset _

/-! ### Progress and termination (70_reset_and_hazards.md R340) -/

theorem State.Inv.completes {s : State} (h : s.Inv) : Completes (engineStep s) := by
  obtain ⟨-, hidle⟩ | ⟨_, _, t, -, -, ht, -⟩ | ⟨_, _, -, -, hrefused⟩ | ⟨_, i, r, -, -, -, hattempt⟩ | ⟨_, -, -, hexit⟩ :=
    h.move_cases
  · exact ⟨_, hidle⟩
  · exact ⟨_, ht⟩
  · exact ⟨_, hrefused⟩
  · obtain ⟨_, -, hok⟩ | ⟨_, -, hfail⟩ := attempt_cases (encode i) r s
    · exact ⟨_, hattempt.trans hok⟩
    · exact ⟨_, hattempt.trans hfail⟩
  · exact ⟨_, hexit⟩

/-- Settles O55: the engine's move completes, and the other turns always have an effect. -/
theorem machineNeverStops : Obligations.MachineNeverStops := by
  intro s h
  obtain ⟨-, heq⟩ | ⟨rest, -, heq⟩ | ⟨a, rest, -, heq⟩ | ⟨rest, -, heq⟩ := step_cases s
  · exact heq ▸ h.completes
  · exact heq ▸ (h.withInputs rest).completes
  · exact ⟨_, heq⟩
  · exact ⟨_, heq⟩

/-- A bound of the engine's moves until BUSY = 0. -/
def State.movesLeft (s : State) : Nat :=
  match s.phase with
  | .idle => 0
  | .command _ => Config.nFL + 2
  | .one => 1
  | .list fpc => s.flen.toNat - fpc + 1

theorem movesLeft_idle {s : State} (h : s.phase = .idle) : s.movesLeft = 0 := by
  rw [State.movesLeft, h]

theorem movesLeft_list {s : State} {fpc : Nat} (h : s.phase = .list fpc) : s.movesLeft = s.flen.toNat - fpc + 1 := by
  rw [State.movesLeft, h]

theorem State.Inv.movesLeft_le {s : State} (h : s.Inv) : s.movesLeft ≤ Config.nFL + 2 := by
  obtain ⟨-, -, hseq⟩ := inv_iff.1 h
  cases hphase : s.phase with
  | idle => rw [movesLeft_idle hphase]; omega
  | command c => rw [State.movesLeft, hphase]
  | one => rw [State.movesLeft, hphase]; simp
  | list fpc =>
    obtain ⟨hflen, -⟩ := (sequencerWf_list hphase).1 hseq
    rw [movesLeft_list hphase]
    omega

/-- A command's own move ends it or leaves at most FLEN + 1 moves. -/
theorem CommandEnd.movesLeft_le {s t : State} {i : Instr} (hend : CommandEnd s i t) : t.movesLeft ≤ Config.nFL + 1 := by
  cases hend
  case listNext hflen _ =>
    show s.flen.toNat - 0 + 1 ≤ _
    omega
  all_goals exact Nat.le_of_ble_eq_true rfl

/-- While BUSY = 1 every move takes the engine nearer to the end. -/
theorem State.Inv.movesLeft_lt {s : State} (h : s.Inv) (hbusy : s.busy = true) :
    ∃ t, engineStep s = .next t ∧ t.movesLeft < s.movesLeft := by
  have hne := s.busy_eq_true_iff.1 hbusy
  obtain ⟨hidle, -⟩ | ⟨c, i, t, hphase, -, ht, hend⟩ | ⟨c, e, hphase, -, hrefused⟩ | ⟨k, i, r, hk, -, -, hattempt⟩ |
    ⟨fpc, hphase, -, hexit⟩ := h.move_cases
  · exact absurd hidle hne
  · have hle := hend.movesLeft_le
    refine ⟨t, ht, ?_⟩
    rw [show s.movesLeft = Config.nFL + 2 by rw [State.movesLeft, hphase]]
    omega
  · refine ⟨_, hrefused, ?_⟩
    rw [show s.movesLeft = Config.nFL + 2 by rw [State.movesLeft, hphase]]
    exact Nat.succ_pos _
  · have hpos : 0 < s.movesLeft := by
      obtain ⟨hphase, -⟩ | ⟨hphase, -⟩ := hk <;> rw [State.movesLeft, hphase] <;> simp
    obtain ⟨_, -, hok⟩ | ⟨e, -, hfail⟩ := attempt_cases (encode i) r s
    · exact ⟨_, hattempt.trans hok, hpos⟩
    · refine ⟨_, hattempt.trans hfail, ?_⟩
      obtain ⟨fpc, hphase, hnext⟩ | ⟨-, hend⟩ := s.attemptFailed_cases e
      · obtain ⟨hone, -⟩ | ⟨hlist, hlt⟩ := hk
        · cases hone.symm.trans hphase
        · cases hlist.symm.trans hphase
          rw [hnext, movesLeft_list hphase, movesLeft_list (State.setPhase_phase _ _), State.setPhase_flen]
          omega
      · rw [hend]
        exact hpos
  · refine ⟨_, hexit, ?_⟩
    rw [movesLeft_list hphase]
    exact Nat.succ_pos _

theorem State.Inv.ends {s : State} (h : s.Inv) :
    ∃ n t, n ≤ s.movesLeft ∧ engineRun n s = .next t ∧ t.busy = false := by
  induction hm : s.movesLeft using Nat.strong_induction_on generalizing s with
  | _ m ih =>
    cases hbusy : s.busy with
    | false => exact ⟨0, s, Nat.zero_le _, rfl, hbusy⟩
    | true =>
      obtain ⟨t, ht, hlt⟩ := h.movesLeft_lt hbusy
      obtain ⟨n, u, hn, hrun, hidle⟩ := ih _ (hm ▸ hlt) (h.of_engineStep ht) rfl
      exact ⟨n + 1, u, by omega, (engineRun_succ ht n).trans hrun, hidle⟩

/-- Settles O56: the moves left are at most N_FL + 2, and each move has fewer left. -/
theorem everyCommandEnds : Obligations.EveryCommandEnds := by
  intro s h
  obtain ⟨n, t, hn, hrun, hidle⟩ := h.ends
  exact ⟨n, t, hn.trans h.movesLeft_le, hrun, hidle⟩

end Sys2Proof.Machine
end

section
/-! PROOFS. The STATUS word, bit by bit (10_state.md R24). -/

namespace Sys2Proof.Machine

/-- A field shows its own bits from its place on. -/
theorem fieldAt_getLsbD {n : Nat} (k : Nat) (x : BitVec n) {j : Nat} (hj : j < Config.xlen) :
    (fieldAt k x).getLsbD j = (decide (k ≤ j) && x.getLsbD (j - k)) := by
  rw [fieldAt, BitVec.getLsbD_shiftLeft, BitVec.getLsbD_setWidth]
  have hshift : j - k < Config.xlen := by omega
  by_cases hkj : k ≤ j
  · simp [hj, hkj, hshift, Nat.not_lt.2 hkj]
  · simp [hkj, Nat.lt_of_not_le hkj]

/-- Every bit of STATUS as the bits of its fields. -/
theorem State.status_getLsbD (s : State) {j : Nat} (hj : j < Config.xlen) :
    s.status.getLsbD j =
      (decide (8 ≤ j) && s.rejCode.getLsbD (j - 8) || decide (j = 4) && s.sempty || decide (j = 3) && s.rej ||
        decide (j = 2) && s.ok || decide (j = 1) && s.done || decide (j = 0) && s.busy) := by
  have hflag : ∀ (k : Nat) (b : Bool), (fieldAt k (BitVec.ofBool b)).getLsbD j = (decide (j = k) && b) := by
    intro k b
    rw [fieldAt_getLsbD k _ hj, BitVec.getLsbD_ofBool]
    by_cases hjk : j = k
    · simp [hjk]
    · by_cases hkj : k ≤ j
      · have hpos : j - k ≠ 0 := by omega
        simp [hjk, hpos]
      · simp [hjk, hkj]
  rw [State.status, BitVec.getLsbD_or, BitVec.getLsbD_or, BitVec.getLsbD_or, BitVec.getLsbD_or, BitVec.getLsbD_or,
    hflag, hflag, hflag, hflag, hflag, fieldAt_getLsbD 8 _ hj]

/-- Above the flags STATUS has REJ_CODE's bits. -/
theorem State.status_getLsbD_high (s : State) {j : Nat} (hj : j < Config.xlen) (hhigh : 5 ≤ j) :
    s.status.getLsbD j = (decide (8 ≤ j) && s.rejCode.getLsbD (j - 8)) := by
  have hflags : j ≠ 4 ∧ j ≠ 3 ∧ j ≠ 2 ∧ j ≠ 1 ∧ j ≠ 0 := by omega
  simp [s.status_getLsbD hj, hflags]

theorem State.status_rejCode (s : State) : s.status.extractLsb' 8 8 = s.rejCode := by
  refine BitVec.eq_of_getLsbD_eq fun k hk => ?_
  rw [BitVec.getLsbD_extractLsb', s.status_getLsbD_high (by simp only [Config.xlen]; omega) (by omega)]
  simp [hk]

theorem State.status_zeroBits (s : State) {k : Nat} (hk : (5 ≤ k ∧ k < 8) ∨ 16 ≤ k) : s.status.getLsbD k = false := by
  by_cases hlt : k < Config.xlen
  · rw [s.status_getLsbD_high hlt (by omega)]
    obtain ⟨-, h8⟩ | h16 := hk
    · simp [Nat.not_le.2 h8]
    · rw [BitVec.getLsbD_of_ge _ _ (by omega), Bool.and_false]
  · exact BitVec.getLsbD_of_ge _ _ (Nat.le_of_not_lt hlt)

theorem State.status_busy (s : State) : s.status.getLsbD 0 = s.busy := by
  rw [s.status_getLsbD (by decide)]; simp

theorem State.status_done (s : State) : s.status.getLsbD 1 = s.done := by
  rw [s.status_getLsbD (by decide)]; simp

theorem State.status_ok (s : State) : s.status.getLsbD 2 = s.ok := by
  rw [s.status_getLsbD (by decide)]; simp

theorem State.status_rej (s : State) : s.status.getLsbD 3 = s.rej := by
  rw [s.status_getLsbD (by decide)]; simp

theorem State.status_sempty (s : State) : s.status.getLsbD 4 = s.sempty := by
  rw [s.status_getLsbD (by decide)]; simp

theorem State.sempty_eq_true_iff (s : State) : s.sempty = true ↔ s.sbits = 0 := beq_iff_eq

/-- Settles O11: the word's bits are its fields' bits. -/
theorem statusWordFields : Obligations.StatusWordFields := by
  intro s
  exact ⟨s.status_busy, s.status_done, s.status_ok, s.status_rej, by rw [s.status_sempty, s.sempty_eq_true_iff],
    s.status_rejCode, fun _ hk => s.status_zeroBits hk, s.busy_eq_false_iff⟩

end Sys2Proof.Machine
end

section
/-! PROOFS. What a command's results depend on (10_state.md R43, 20_memory.md R63): two states with the same inputs. -/

namespace Sys2Proof.Machine

/-! ### The decoders read the stream's own bits only -/

/-- Two streams of one length with the same bits; what lies beyond the length may differ. -/
def SameBits (st st' : Stream) : Prop := st'.bitCount = st.bitCount ∧ ∀ i, i < st.bitCount → st.bit i = st'.bit i

theorem SameBits.decodeT1 {st st' : Stream} (h : SameBits st st') (inv : Bool) :
    decodeT1 inv st = Machine.decodeT1 inv st' :=
  decodeT1_congr h.1 fun _ hk => t1Window_congr inv fun i _ hi => h.2 i (by omega)

theorem SameBits.t2Same {st st' : Stream} (h : SameBits st st') (par : T2Params) : T2Same par par st st' :=
  ⟨h.1, fun _ hp => canon_congr par fun i _ hi => h.2 i (by omega), rfl, rfl, rfl⟩

theorem SameBits.customScan {st st' : Stream} (h : SameBits st st') (f : FormatSpec) {n p : Nat}
    (hn : p + f.bitsPerChar * n ≤ st.bitCount) (idx : Nat) (started : Bool) (str : List Byte) :
    customScan f st n p idx started str = Machine.customScan f st' n p idx started str := by
  induction n generalizing p idx started str with
  | zero => rfl
  | succ n ih =>
    rw [Nat.mul_succ] at hn
    have hrest : p + f.bitsPerChar + f.bitsPerChar * n ≤ st.bitCount := by omega
    have hwindow : customWindow f st p = customWindow f st' p :=
      customWindow_congr f fun i _ hi => h.2 i (by omega)
    simp only [customScan_succ, hwindow, ih hrest]

theorem SameBits.decodeCustom {st st' : Stream} (h : SameBits st st') (f : FormatSpec) :
    decodeCustom f st = Machine.decodeCustom f st' := by
  have hwindows : st'.windowsFrom 0 f.bitsPerChar = st.windowsFrom 0 f.bitsPerChar := by
    rw [Stream.windowsFrom, h.1, ← Stream.windowsFrom]
  have hn : 0 + f.bitsPerChar * st.windowsFrom 0 f.bitsPerChar ≤ st.bitCount := by
    rw [Nat.zero_add]
    exact Nat.mul_div_le _ _
  rw [Machine.decodeCustom, Machine.decodeCustom, hwindows, h.customScan f hn]

theorem SameBits.decodeFormat {st st' : Stream} (h : SameBits st st') {i : Instr} (hi : i.isCommand = false) :
    decodeFormat i st = Machine.decodeFormat i st' := by
  obtain ⟨inv, hd⟩ | ⟨par, hd⟩ | ⟨f, hd⟩ := decodeFormat_cases hi
  · rw [hd, hd, h.decodeT1 inv]
  · rw [hd, hd, (h.t2Same par).decode]
  · rw [hd, hd, h.decodeCustom f]

/-! ### States with the same inputs and the same record -/

/-- The states agree on what a move reads, and on the record. -/
structure Alike (s t : State) : Prop where
  phase : s.phase = t.phase
  arg0 : s.arg0 = t.arg0
  arg1 : s.arg1 = t.arg1
  sbits : s.sbits = t.sbits
  slen : s.slen = t.slen
  flen : s.flen = t.flen
  lrcAcc : s.lrcAcc = t.lrcAcc
  bits : ∀ i, i < s.sbits.toNat → s.stream.bit i = t.stream.bit i
  words : ∀ i, i < s.flen.toNat → s.flWord i = t.flWord i
  done : s.done = t.done
  ok : s.ok = t.ok
  rej : s.rej = t.rej
  rejCode : s.rejCode = t.rejCode
  res : s.res = t.res
  errKind : s.errKind = t.errKind
  errInfo0 : s.errInfo0 = t.errInfo0
  errInfo1 : s.errInfo1 = t.errInfo1

/-- STATUS shows every flag of the record, so states with the same STATUS have the same flags. -/
theorem status_inj {s t : State} (h : s.status = t.status) :
    s.done = t.done ∧ s.ok = t.ok ∧ s.rej = t.rej ∧ s.rejCode = t.rejCode := by
  refine ⟨?_, ?_, ?_, ?_⟩
  · rw [← s.status_done, h, t.status_done]
  · rw [← s.status_ok, h, t.status_ok]
  · rw [← s.status_rej, h, t.status_rej]
  · rw [← s.status_rejCode, h, t.status_rejCode]

theorem alike_of {s t : State} (hin : SameInputs s t) (hrec : SameRecord s t) : Alike s t := by
  obtain ⟨hphase, harg0, harg1, hsbits, hslen, hflen, hlrc, hbits, hwords⟩ := hin
  obtain ⟨hstatus, hres, hkind, hinfo0, hinfo1⟩ := hrec
  obtain ⟨hdone, hok, hrej, hcode⟩ := status_inj hstatus
  exact ⟨hphase, harg0, harg1, hsbits, hslen, hflen, hlrc, hbits, hwords, hdone, hok, hrej, hcode, hres, hkind, hinfo0,
    hinfo1⟩

section
variable {s t : State} (h : Alike s t)
include h

theorem Alike.sameInputs : SameInputs s t :=
  ⟨h.phase, h.arg0, h.arg1, h.sbits, h.slen, h.flen, h.lrcAcc, h.bits, h.words⟩

theorem Alike.sameRecord : SameRecord s t := by
  refine ⟨?_, h.res, h.errKind, h.errInfo0, h.errInfo1⟩
  simp only [State.status, State.busy, State.sempty, h.phase, h.sbits, h.done, h.ok, h.rej, h.rejCode]

theorem Alike.sameBits : SameBits s.stream t.stream := ⟨by simp [h.sbits], h.bits⟩

theorem Alike.endOk (r : Word) : Alike (s.endOk r) (t.endOk r) :=
  { h with phase := rfl, done := rfl, ok := rfl, rej := rfl, rejCode := rfl, res := rfl, errKind := rfl
           errInfo0 := rfl, errInfo1 := rfl }

theorem Alike.endError (e : Err) : Alike (s.endError e) (t.endError e) :=
  { h with phase := rfl, done := rfl, ok := rfl, rej := rfl, rejCode := rfl, res := rfl, errKind := rfl
           errInfo0 := rfl, errInfo1 := rfl }

theorem Alike.endRefused (c : BitVec 8) : Alike (s.endRefused c) (t.endRefused c) :=
  { h with phase := rfl, done := rfl, ok := rfl, rej := rfl, rejCode := rfl, res := rfl, errKind := rfl
           errInfo0 := rfl, errInfo1 := rfl }

theorem Alike.setPhase (p : Phase) : Alike (s.setPhase p) (t.setPhase p) := { h with phase := rfl }

theorem Alike.setLrcAcc (v : Byte) : Alike (s.setLrcAcc v) (t.setLrcAcc v) := { h with lrcAcc := rfl }

theorem Alike.recordMatch (x d : Word) (l : List Byte) : Alike (s.recordMatch x d l) (t.recordMatch x d l) := { h with }

theorem Alike.recordNoMatch : Alike s.recordNoMatch t.recordNoMatch := { h with }

/-! ### Commands -/

theorem Alike.extractEnd {window : Stream → Nat → Nat → Byte}
    (hwindow : s.arg0.toNat + s.arg1.toNat ≤ s.sbits.toNat →
      window s.stream s.arg0.toNat s.arg1.toNat = window t.stream s.arg0.toNat s.arg1.toNat) :
    Alike (s.extractEnd window) (t.extractEnd window) := by
  rw [State.extractEnd, State.extractEnd, ← h.arg0, ← h.arg1, ← h.sbits]
  split_ifs
  · exact h.endRefused _
  · exact h.endError _
  · rw [hwindow (by omega)]
    exact h.endOk _

theorem Alike.checkParityOperands : checkParityOperands s = Machine.checkParityOperands t := by
  rw [checkParityOperands_eq, checkParityOperands_eq, h.arg0, h.arg1]

theorem Alike.exec_decodeOne :
    ∃ s' t', exec .decodeOne s = .next s' ∧ exec .decodeOne t = .next t' ∧ Alike s' t' := by
  by_cases hdomain : s.flen.toNat ≤ Config.nFL ∧ s.arg0.toNat < s.flen.toNat
  · have hword := h.words _ hdomain.2
    have hdomain' := hdomain
    rw [h.arg0] at hword
    rw [h.arg0, h.flen] at hdomain'
    cases hlegal : legalDescriptor (t.flWord t.arg0.toNat) with
    | true =>
      exact ⟨_, _, exec_decodeOne_of_legal hdomain.1 hdomain.2 (by rw [h.arg0, hword, hlegal]),
        exec_decodeOne_of_legal hdomain'.1 hdomain'.2 hlegal, h.setPhase _⟩
    | false =>
      exact ⟨_, _, exec_decodeOne_of_illegal hdomain.1 hdomain.2 (by rw [h.arg0, hword, hlegal]),
        exec_decodeOne_of_illegal hdomain'.1 hdomain'.2 hlegal, h.endRefused _⟩
  · have hdomain' := hdomain
    rw [h.arg0, h.flen] at hdomain'
    exact ⟨_, _, exec_decodeOne_of_outside (by omega), exec_decodeOne_of_outside (by omega), h.endRefused _⟩

theorem Alike.listLegal : listLegal s s.flen.toNat = Machine.listLegal t t.flen.toNat := by
  rw [Bool.eq_iff_iff, listLegal_iff, listLegal_iff, ← h.flen]
  exact forall₂_congr fun k hk => by rw [h.words k hk]

theorem Alike.exec_decodeList :
    ∃ s' t', exec .decodeList s = .next s' ∧ exec .decodeList t = .next t' ∧ Alike s' t' := by
  by_cases hflen : t.flen.toNat ≤ Config.nFL
  · have hflen' : s.flen.toNat ≤ Config.nFL := h.flen ▸ hflen
    by_cases hempty : t.flen = 0
    · exact ⟨_, _, exec_decodeList_of_empty (h.flen.trans hempty), exec_decodeList_of_empty hempty,
        h.recordNoMatch.endError _⟩
    · have hempty' : s.flen ≠ 0 := h.flen ▸ hempty
      cases hlegal : Machine.listLegal t t.flen.toNat with
      | true =>
        exact ⟨_, _, exec_decodeList_of_legal hflen' hempty' (h.listLegal.trans hlegal),
          exec_decodeList_of_legal hflen hempty hlegal, h.setPhase _⟩
      | false =>
        exact ⟨_, _, exec_decodeList_of_illegal hflen' (h.listLegal.trans hlegal),
          exec_decodeList_of_illegal hflen hlegal, h.endRefused _⟩
  · have hflen' : ¬ s.flen.toNat ≤ Config.nFL := h.flen ▸ hflen
    exact ⟨_, _, exec_decodeList_of_outside (by omega), exec_decodeList_of_outside (by omega), h.endRefused _⟩

/-- A command other than BS_NEW reads the operands, the stream's bits, LRCACC and FL within FLEN, and nothing else. -/
theorem Alike.exec_command {i : Instr} (hi : i.isCommand = true) (hne : i ≠ .bsNew) :
    ∃ s' t', exec i s = .next s' ∧ exec i t = .next t' ∧ Alike s' t' := by
  cases i
  case nop => exact ⟨_, _, exec_nop s, exec_nop t, h.endOk 0⟩
  case bsNew => exact absurd rfl hne
  case extractLsb =>
    exact ⟨_, _, exec_extractLsb s, exec_extractLsb t,
      h.extractEnd fun hfit => Stream.windowLsb_congr fun i _ hi => h.bits i (by omega)⟩
  case extractMsb =>
    exact ⟨_, _, exec_extractMsb s, exec_extractMsb t,
      h.extractEnd fun hfit => Stream.windowMsb_congr fun i _ hi => h.bits i (by omega)⟩
  case invert =>
    by_cases hbyte : t.arg0.toNat < 256
    · exact ⟨_, _, exec_invert_of_lt (h.arg0 ▸ hbyte), exec_invert_of_lt hbyte, h.arg0 ▸ h.endOk _⟩
    · exact ⟨_, _, exec_invert_of_le (h.arg0 ▸ Nat.le_of_not_lt hbyte), exec_invert_of_le (Nat.le_of_not_lt hbyte),
        h.endRefused _⟩
  case checkParity =>
    show ∃ s' t', execCheckParity s = .next s' ∧ execCheckParity t = .next t' ∧ _
    rw [execCheckParity, execCheckParity, h.checkParityOperands]
    cases Machine.checkParityOperands t with
    | none => exact ⟨_, _, rfl, rfl, h.endRefused _⟩
    | some _ => exact ⟨_, _, rfl, rfl, h.endOk _⟩
  case lrcClr => exact ⟨_, _, rfl, rfl, (h.setLrcAcc 0).endOk 0⟩
  case lrcPush =>
    by_cases hbyte : t.arg0.toNat < 256
    · refine ⟨_, _, exec_lrcPush_of_lt (h.arg0 ▸ hbyte), exec_lrcPush_of_lt hbyte, ?_⟩
      rw [h.arg0, h.lrcAcc]
      exact (h.setLrcAcc _).endOk 0
    · exact ⟨_, _, exec_lrcPush_of_le (h.arg0 ▸ Nat.le_of_not_lt hbyte), exec_lrcPush_of_le (Nat.le_of_not_lt hbyte),
        h.endRefused _⟩
  case lrcFinT2 =>
    refine ⟨_, _, rfl, rfl, ?_⟩
    rw [h.lrcAcc]
    exact h.endOk _
  case lrcFinT1 =>
    refine ⟨_, _, rfl, rfl, ?_⟩
    rw [h.lrcAcc]
    exact h.endOk _
  case decodeOne => exact h.exec_decodeOne
  case decodeList => exact h.exec_decodeList
  all_goals cases hi

/-! ### BS_NEW and the attempts -/

/-- BS_NEW's record, SBITS and SLEN depend on its operands alone; the bits of the new stream are FB's. -/
theorem Alike.exec_bsNew :
    ∃ s' t', exec .bsNew s = .next s' ∧ exec .bsNew t = .next t' ∧ SameRecord s' t' ∧ s'.sbits = t'.sbits ∧
      s'.slen = t'.slen ∧ s'.lrcAcc = t'.lrcAcc ∧ s'.phase = t'.phase := by
  by_cases hprovided : t.arg0.toNat ≤ Config.nFB
  · rw [exec_bsNew_of_le_nFB hprovided, exec_bsNew_of_le_nFB (h.arg0 ▸ hprovided), h.arg0, h.arg1]
    by_cases hfit : requiredBytes t.arg1.toNat ≤ t.arg0.toNat
    · rw [constructStream_of_requiredBytes_le t.arg1 s hfit, constructStream_of_requiredBytes_le t.arg1 t hfit]
      exact ⟨_, _, rfl, rfl, ⟨rfl, rfl, rfl, rfl, rfl⟩, rfl, rfl, h.lrcAcc, rfl⟩
    · rw [constructStream_of_lt_requiredBytes s (by omega), constructStream_of_lt_requiredBytes t (by omega)]
      exact ⟨_, _, rfl, rfl, ⟨rfl, rfl, rfl, rfl, rfl⟩, rfl, rfl, h.lrcAcc, rfl⟩
  · have hrefused := exec_bsNew_of_nFB_lt (s := s) (h.arg0 ▸ Nat.lt_of_not_le hprovided)
    have hends := h.endRefused rejOperand
    exact ⟨_, _, hrefused, exec_bsNew_of_nFB_lt (Nat.lt_of_not_le hprovided), hends.sameRecord, hends.sbits, hends.slen,
      hends.lrcAcc, hends.phase⟩

theorem Alike.attemptIndex : s.attemptIndex = t.attemptIndex := by
  rw [State.attemptIndex, State.attemptIndex, h.phase, h.arg0]

/-- The same attempt in both states: the same record, and the same match where it ends the command. -/
theorem Alike.attempt (d : Word) (r : DecodeResult) :
    ∃ s' t', attempt d r s = .next s' ∧ Machine.attempt d r t = .next t' ∧ Alike s' t' ∧
      (s'.phase = .idle → SameMatch s' t') := by
  cases r with
  | ok str =>
    refine ⟨_, _, attempt_ok d str s, attempt_ok d str t, ?_, fun _ => ⟨h.attemptIndex, rfl, rfl, rfl⟩⟩
    rw [h.attemptIndex]
    exact (h.recordMatch _ _ _).endOk 0
  | error e =>
    refine ⟨_, _, rfl, rfl, ?_⟩
    obtain ⟨fpc, hphase, hs⟩ | ⟨hnotList, hs⟩ := s.attemptFailed_cases e
    · have ht : t.attemptFailed e = t.setPhase (.list (fpc + 1)) := by
        rw [State.attemptFailed, ← h.phase, hphase]
      rw [hs, ht]
      exact ⟨h.setPhase _, fun hidle => by cases hidle⟩
    · have ht : t.attemptFailed e = t.recordNoMatch.endError e := by
        obtain ⟨fpc, hphase, -⟩ | ⟨-, ht⟩ := t.attemptFailed_cases e
        · exact absurd (h.phase.trans hphase) (hnotList fpc)
        · exact ht
      rw [hs, ht]
      exact ⟨h.recordNoMatch.endError e, fun _ => ⟨rfl, rfl, rfl, rfl⟩⟩

/-- Both engines attempt the same entry, on the same word of FL and the same bits. -/
theorem Alike.engineStep_attempt {k : Nat} {i : Instr} {r : DecodeResult} (hk : s.Attempting k) (hnFL : k < Config.nFL)
    (hflen : k < s.flen.toNat) (hd : decodeDescriptor (s.flWord k) = .ok i) (hr : decodeFormat i s.stream = some r) :
    engineStep t = Machine.attempt (encode i) r t := by
  have hd' : decodeDescriptor (t.flWord k) = .ok i := h.words k hflen ▸ hd
  have hdesc := (encode_decodeDescriptor hd).1
  obtain ⟨r', hr', hexec⟩ := exec_descriptor t hdesc
  cases (hr.symm.trans (h.sameBits.decodeFormat hdesc)).trans hr'
  rw [← hexec]
  obtain ⟨hphase, hindex⟩ | ⟨hphase, -⟩ := hk
  · rw [hindex, h.arg0] at hnFL hd'
    exact engineStep_one (h.phase.symm.trans hphase) hnFL hd'
  · exact engineStep_list (h.phase.symm.trans hphase) (h.flen ▸ hflen) hnFL hd'

end

/-! ### A move of the engine -/

/-- What two moves that read the same leave alike; only BS_NEW takes new bits from FB. -/
def MovesAlike (s s' t' : State) : Prop :=
  SameRecord s' t' ∧ s'.sbits = t'.sbits ∧ s'.slen = t'.slen ∧ s'.lrcAcc = t'.lrcAcc ∧ s'.phase = t'.phase ∧
    (s.phase ≠ .command 0x01 → SameInputs s' t') ∧
    (s.phase = .one ∨ (∃ fpc, s.phase = .list fpc) → s'.phase = .idle → SameMatch s' t')

theorem Alike.moves {s s' t' : State} (h : Alike s' t')
    (hmatch : s.phase = .one ∨ (∃ fpc, s.phase = .list fpc) → s'.phase = .idle → SameMatch s' t') :
    MovesAlike s s' t' :=
  ⟨h.sameRecord, h.sbits, h.slen, h.lrcAcc, h.phase, fun _ => h.sameInputs, hmatch⟩

/-- No decode command runs its attempts in the stage of a command word. -/
theorem not_attempting_of_command {s : State} {c : Word} (hphase : s.phase = .command c) :
    ¬ (s.phase = .one ∨ ∃ fpc, s.phase = .list fpc) := by
  rintro (hone | ⟨fpc, hlist⟩)
  · cases hone.symm.trans hphase
  · cases hlist.symm.trans hphase

/-- Settles O57: by the move of the first state, the second state's move reads the same and ends alike. -/
theorem resultsDependOnlyOnTheStream : Obligations.ResultsDependOnlyOnTheStream := by
  intro s t s' hs _ hin hrec hstep
  have h := alike_of hin hrec
  suffices hmoves : ∃ s'' t', engineStep s = .next s'' ∧ engineStep t = .next t' ∧ MovesAlike s s'' t' by
    obtain ⟨s'', t', hs'', ht', hmoves⟩ := hmoves
    cases hs''.symm.trans hstep
    exact ⟨t', ht', hmoves⟩
  obtain ⟨hphase, hidle⟩ | ⟨c, i, -, hphase, hd, -, -⟩ | ⟨c, e, hphase, hd, hrefused⟩ | ⟨k, i, r, hk, hd, hr, hattempt⟩ |
    ⟨fpc, hphase, hend, hexit⟩ := hs.move_cases
  · refine ⟨s, t, hidle, engineStep_idle (h.phase.symm.trans hphase), h.moves ?_⟩
    rintro (hone | ⟨fpc, hlist⟩)
    · cases hone.symm.trans hphase
    · cases hlist.symm.trans hphase
  · rw [engineStep_command hphase hd, engineStep_command (h.phase.symm.trans hphase) hd]
    obtain ⟨hcommand, -, hword⟩ := encode_decodeCommand hd
    by_cases hbs : i = .bsNew
    · subst hbs
      obtain ⟨s'', t', hs'', ht', hrecord, hsbits, hslen, hlrc, hphase'⟩ := h.exec_bsNew
      have hcmd : s.phase = .command 0x01 := hphase.trans (congrArg Phase.command hword.symm)
      exact ⟨s'', t', hs'', ht', hrecord, hsbits, hslen, hlrc, hphase', fun hne => absurd hcmd hne,
        fun hattempting => absurd hattempting (not_attempting_of_command hphase)⟩
    · obtain ⟨s'', t', hs'', ht', halike⟩ := h.exec_command hcommand hbs
      exact ⟨s'', t', hs'', ht', halike.moves fun hattempting => absurd hattempting (not_attempting_of_command hphase)⟩
  · exact ⟨_, _, hrefused, engineStep_command_error (h.phase.symm.trans hphase) hd,
      (h.endRefused _).moves fun hattempting => absurd hattempting (not_attempting_of_command hphase)⟩
  · obtain ⟨hnFL, hflen, -⟩ := hs.attempting hk
    obtain ⟨s'', t', hs'', ht', halike, hmatch⟩ := h.attempt (encode i) r
    exact ⟨s'', t', hattempt.trans hs'', (h.engineStep_attempt hk hnFL hflen hd hr).trans ht',
      halike.moves fun _ => hmatch⟩
  · refine ⟨_, _, hexit, engineStep_list_end (h.phase.symm.trans hphase) (h.flen ▸ hend),
      Alike.moves ?_ fun _ _ => ⟨rfl, rfl, rfl, rfl⟩⟩
    rw [State.listExhausted, State.listExhausted, h.flen]
    exact h.recordNoMatch.endError _

end Sys2Proof.Machine
end

section
/-! PROOFS. The windows and the checksums (41_primitives.md R150 to R165), and the rendering of the stream (R132). -/

namespace Sys2Proof.Machine

/-! ### The windows (R150, R152) -/

theorem exLsb_of_fits {st : Stream} {o w : Nat} (h : o + w ≤ st.bitCount) : exLsb st o w = some (st.windowLsb o w) := by
  rw [exLsb_eq, if_neg (Nat.not_lt.2 h)]

theorem exMsb_of_fits {st : Stream} {o w : Nat} (h : o + w ≤ st.bitCount) : exMsb st o w = some (st.windowMsb o w) := by
  rw [exMsb_eq, if_neg (Nat.not_lt.2 h)]

theorem exLsb_eq_none_iff (st : Stream) (o w : Nat) : exLsb st o w = none ↔ o + w > st.bitCount := by
  rw [exLsb_eq]; split <;> simp_all

theorem exMsb_eq_none_iff (st : Stream) (o w : Nat) : exMsb st o w = none ↔ o + w > st.bitCount := by
  rw [exMsb_eq]; split <;> simp_all

theorem exLsb_value {st : Stream} {o w : Nat} (hw : w ≤ 8) {v : Byte} (h : exLsb st o w = some v) :
    v.toNat = ((List.range w).map fun k => (st.bit (o + k)).toNat * 2 ^ k).sum ∧ v.toNat < 2 ^ w := by
  rw [exLsb_eq] at h
  split at h <;> cases h
  have hvalue := st.windowLsb_toNat o hw
  refine ⟨hvalue, ?_⟩
  rw [hvalue, ← bitsLsbFirst_bits]
  simpa using bitsLsbFirst_lt (st.bits o w)

theorem exMsb_value {st : Stream} {o w : Nat} (hw : w ≤ 8) {v : Byte} (h : exMsb st o w = some v) :
    v.toNat = ((List.range w).map fun k => (st.bit (o + k)).toNat * 2 ^ (w - 1 - k)).sum ∧ v.toNat < 2 ^ w := by
  rw [exMsb_eq] at h
  split at h <;> cases h
  have hvalue := st.windowMsb_toNat o hw
  refine ⟨hvalue, ?_⟩
  rw [hvalue, ← bitsMsbFirst_bits]
  simpa using bitsMsbFirst_lt (st.bits o w)

/-- Bit `k` of an MSB-first window is the stream's bit at the window's other end. -/
theorem Stream.windowMsb_getLsbD (st : Stream) {o w k : Nat} (hk : k < 8) :
    (st.windowMsb o w).getLsbD k = (decide (k < w) && st.bit (o + (w - 1 - k))) := by
  rw [Stream.windowMsb, BitVec.getLsbD_ofNat, bitsMsbFirst_eq_reverse, testBit_bitsLsbFirst]
  by_cases hkw : k < w
  · simp [Stream.bits, hk, hkw]
  · simp [Stream.bits, hk, hkw]

/-- An aligned byte is its own MSB-first window (R62). -/
theorem windowMsb_aligned (st : Stream) {o : Nat} (ho : o % 8 = 0) : st.windowMsb o 8 = st.byte (o / 8) := by
  refine BitVec.eq_of_getLsbD_eq fun k hk => ?_
  have hbyte : (o + (8 - 1 - k)) / 8 = o / 8 := by omega
  have hplace : 7 - (o + (8 - 1 - k)) % 8 = k := by omega
  rw [st.windowMsb_getLsbD hk, Stream.bit, hbyte, hplace]
  simp [hk]

theorem rev5_getLsbD (v : Byte) {k : Nat} (hk : k < 8) :
    (rev5 v).getLsbD k = (decide (k < 5) && v.getLsbD (4 - k)) := by
  rw [rev5, BitVec.getLsbD_setWidth, BitVec.getLsbD_reverse, BitVec.getMsbD_eq_getLsbD, BitVec.getLsbD_extractLsb']
  have hflip : 4 - k < 5 := by omega
  simp [hk, hflip]

/-- Reading five bits from the other end is `rev5` (R9). -/
theorem windowMsb_five (st : Stream) (o : Nat) : st.windowMsb o 5 = rev5 (st.windowLsb o 5) := by
  refine BitVec.eq_of_getLsbD_eq fun k hk => ?_
  rw [st.windowMsb_getLsbD hk, rev5_getLsbD _ hk, st.windowLsb_getLsbD (by omega)]
  by_cases hk5 : k < 5
  · have hflip : 4 - k < 5 := by omega
    simp [hk5, hflip]
  · simp [hk5]

/-- Settles O21: the sums, and the windows of the three decoders by their definitions. -/
theorem windowAssembly : Obligations.WindowAssembly := by
  refine ⟨fun st o w hw => ⟨exLsb_eq_none_iff st o w, exMsb_eq_none_iff st o w, fun v => exLsb_value hw,
    fun v => exMsb_value hw, ?aligned, ?five⟩, ?track1, ?track2, ?custom⟩
  case aligned =>
    rintro rfl ho hfit
    rw [exMsb_of_fits hfit, windowMsb_aligned st ho]
  case five =>
    rintro rfl
    rw [exMsb_eq, exLsb_eq]
    split
    · rfl
    · rw [windowMsb_five]; rfl
  case track1 =>
    intro inv st o hfit
    rw [exLsb_of_fits hfit]
    rfl
  case track2 =>
    intro par st o hfit
    refine ⟨by rw [exLsb_of_fits hfit]; rfl, fun hmsb hinv => ?_⟩
    rw [exMsb_of_fits hfit, canon, hmsb, hinv, windowMsb_five]
    rfl
  case custom =>
    intro f st o _ _ hfit
    rw [exLsb_of_fits hfit, exMsb_of_fits hfit, customWindow]
    cases f.lsbFirst <;> rfl

/-! ### The checksums (R160, R161, R164, R165) -/

/-- Settles O26: both checksums are the fix-up of the characters' XOR. -/
theorem checksumWeights : Obligations.ChecksumWeights := by
  refine ⟨by decide, by decide, fun chars => ?_⟩
  rw [lrcT2_eq, lrcT1_eq]
  obtain ⟨hlt2, hweight2, hbits2⟩ := lrcFixT2_spec (chars.foldl (· ^^^ ·) 0)
  obtain ⟨hlt1, hweight1, hbits1⟩ := lrcFixT1_spec (chars.foldl (· ^^^ ·) 0)
  exact ⟨hlt2, hweight2, hbits2, hlt1, hweight1, hbits1⟩

theorem exec_lrcFinT2 (s : State) : exec .lrcFinT2 s = .next (s.endOk ((lrcFixT2 s.lrcAcc).setWidth Config.xlen)) := rfl

theorem exec_lrcFinT1 (s : State) : exec .lrcFinT1 s = .next (s.endOk ((lrcFixT1 s.lrcAcc).setWidth Config.xlen)) := rfl

/-- Settles O28: the fix-ups of LRCACC, which after the pushes holds the XOR of the list. -/
theorem lrcFinishesComputeChecksums : Obligations.LrcFinishesComputeChecksums := by
  intro s
  obtain ⟨hlt2, hweight2, hbits2⟩ := lrcFixT2_spec s.lrcAcc
  obtain ⟨hlt1, hweight1, hbits1⟩ := lrcFixT1_spec s.lrcAcc
  refine ⟨⟨_, hlt2, hweight2, hbits2, exec_lrcFinT2 s⟩, ⟨_, hlt1, hweight1, hbits1, exec_lrcFinT1 s⟩, fun chars p hp => ?_⟩
  obtain ⟨y, hpushed⟩ := pushChars_endOk s chars 0 s.arg0
  have hacc : p.lrcAcc = chars.foldl (· ^^^ ·) 0 := by
    cases hpushed.symm.trans hp
    rfl
  rw [exec_lrcFinT2, exec_lrcFinT1, hacc, lrcT2_eq, lrcT1_eq]
  exact ⟨rfl, rfl⟩

/-! ### The rendering (R132) -/

/-- The character of bit `i`. -/
def renderBit (st : Stream) (i : Nat) : Byte := if st.bit i then 0x31#8 else 0x30#8

/-- What the rendering shows for bit `i`: before each group of 8 but the first, the delimiter too. -/
def renderGroup (st : Stream) (i : Nat) : List Byte := (if i > 0 ∧ i % 8 = 0 then [delim] else []) ++ [renderBit st i]

/-- The rendering of the first `n` bits. -/
def renderUpTo (st : Stream) (n : Nat) : List Byte := (List.range n).flatMap (renderGroup st)

theorem render_eq (st : Stream) : st.render = renderUpTo st st.bitCount := rfl

theorem renderUpTo_succ (st : Stream) (n : Nat) : renderUpTo st (n + 1) = renderUpTo st n ++ renderGroup st n := by
  simp [renderUpTo, List.range_succ]

theorem renderGroup_cases (st : Stream) (n : Nat) :
    (0 < n ∧ n % 8 = 0 ∧ renderGroup st n = [delim, renderBit st n]) ∨
    ((n = 0 ∨ n % 8 ≠ 0) ∧ renderGroup st n = [renderBit st n]) := by
  rw [renderGroup]
  split
  next h => exact .inl ⟨h.1, h.2, rfl⟩
  next h => exact .inr ⟨by omega, rfl⟩

theorem length_renderUpTo (st : Stream) (n : Nat) : (renderUpTo st n).length = n + (n - 1) / 8 := by
  induction n with
  | zero => rfl
  | succ n ih =>
    rw [renderUpTo_succ, List.length_append, ih]
    obtain ⟨hpos, hgroup, h⟩ | ⟨hinside, h⟩ := renderGroup_cases st n <;> rw [h]
    · simp only [List.length_cons, List.length_nil]; omega
    · simp only [List.length_cons, List.length_nil]; omega

theorem getElem?_renderUpTo_bit (st : Stream) {n k : Nat} (hk : k < n) :
    (renderUpTo st n)[k + k / 8]? = some (renderBit st k) := by
  induction n with
  | zero => omega
  | succ n ih =>
    have hlength := length_renderUpTo st n
    rw [renderUpTo_succ]
    by_cases hkn : k < n
    · rw [List.getElem?_append_left (by omega), ih hkn]
    · obtain rfl : k = n := by omega
      rw [List.getElem?_append_right (by omega)]
      obtain ⟨hpos, hgroup, h⟩ | ⟨hinside, h⟩ := renderGroup_cases st k <;> rw [h]
      · rw [show k + k / 8 - (renderUpTo st k).length = 1 by omega]; rfl
      · rw [show k + k / 8 - (renderUpTo st k).length = 0 by omega]; rfl

theorem getElem?_renderUpTo_delim (st : Stream) {n j : Nat} (hj : 1 ≤ j) (hn : 8 * j < n) :
    (renderUpTo st n)[9 * j - 1]? = some delim := by
  induction n with
  | zero => omega
  | succ n ih =>
    have hlength := length_renderUpTo st n
    rw [renderUpTo_succ]
    by_cases hjn : 8 * j < n
    · rw [List.getElem?_append_left (by omega), ih hjn]
    · rw [List.getElem?_append_right (by omega)]
      obtain ⟨-, -, h⟩ | ⟨hinside, -⟩ := renderGroup_cases st n
      · rw [h, show 9 * j - 1 - (renderUpTo st n).length = 0 by omega]; rfl
      · omega

/-- The delimiter is no character of a bit (log 11). -/
theorem renderBit_ne_delim (st : Stream) (i : Nat) : renderBit st i ≠ delim := by
  have hdelim : delim ≠ 0x30#8 ∧ delim ≠ 0x31#8 := by
    have hlt := Config.delimIndex.isLt
    rw [delim]
    constructor <;> intro heq <;> have hnum := congrArg BitVec.toNat heq <;> split at hnum <;>
      simp only [BitVec.toNat_ofNat] at hnum <;> omega
  rw [renderBit]
  split
  · exact hdelim.2.symm
  · exact hdelim.1.symm

theorem filter_renderGroup (st : Stream) (i : Nat) :
    (renderGroup st i).filter (fun x => x ≠ delim) = [renderBit st i] := by
  obtain ⟨-, -, h⟩ | ⟨-, h⟩ := renderGroup_cases st i <;> simp [h, renderBit_ne_delim st i]

/-- Settles O31: by induction over the bits, a bit's place being the length of what precedes it. -/
theorem renderingShowsTheBits : Obligations.RenderingShowsTheBits := by
  intro st
  rw [render_eq]
  refine ⟨fun k hk => getElem?_renderUpTo_bit st hk, fun j hj hn => getElem?_renderUpTo_delim st hj hn,
    length_renderUpTo st st.bitCount, ?_⟩
  rw [renderUpTo, List.filter_flatMap]
  simp only [filter_renderGroup]
  exact List.map_eq_flatMap.symm

end Sys2Proof.Machine
end

section
/-! PROOFS. The turns of the schedule, the host's accesses and the register map (10_state.md R34, 20_memory.md R68 to R70,
70_reset_and_hazards.md R320 to R330), and reset. -/

namespace Sys2Proof.Machine

/-! ### The turns of the schedule (log 2, log 3) -/

theorem step_engine {s u : State}
    (h : (s.inputs = [] ∧ u = s) ∨ ∃ rest, s.inputs = .engine :: rest ∧ u = { s with inputs := rest }) :
    step s = engineStep u := by
  obtain ⟨hinputs, rfl⟩ | ⟨rest, hinputs, rfl⟩ := h <;> rw [step, hinputs]

theorem step_host {s : State} {a : HostAccess} {rest : List Input} (h : s.inputs = .host a :: rest) :
    step s = .next (({ s with inputs := rest } : State).hostAccess a) := by
  rw [step, h]

theorem step_reset {s : State} {rest : List Input} (h : s.inputs = .reset :: rest) :
    step s = .next ({ s with inputs := rest } : State).hostReset := by
  rw [step, h]

/-- Settles O6: taking the turn off the schedule changes nothing that the fetch reads. -/
theorem stepRunsFetchedInstruction : Obligations.StepRunsFetchedInstruction := by
  intro s u i hturn
  rw [step_engine hturn]
  have hview : u.phase = s.phase ∧ u.arg0 = s.arg0 ∧ u.flen = s.flen ∧ ∀ k, u.flWord k = s.flWord k := by
    obtain ⟨-, rfl⟩ | ⟨rest, -, rfl⟩ := hturn <;> exact ⟨rfl, rfl, rfl, fun _ => rfl⟩
  obtain ⟨hphase, harg0, hflen, hword⟩ := hview
  rw [← hphase, ← harg0, ← hflen]
  simp only [← hword]
  exact ⟨fun c => engineStep_command, engineStep_one, fun fpc => engineStep_list⟩

/-- Settles O7: each turn by its own equation. -/
theorem turnsOfTheSchedule : Obligations.TurnsOfTheSchedule :=
  fun _ _ => ⟨fun _ => step_host, step_reset, engineStep_idle⟩

/-- Settles O17: the next state is the reset state with new draws, and nothing is listed in it. -/
theorem resetTurnGivesResetState : Obligations.ResetTurnGivesResetState :=
  fun _ _ h => ⟨_, step_reset h, rfl, fun _ => ⟨rfl, rfl, rfl⟩⟩

/-! ### The register map (R34) -/

/-- From 0x010 on the map holds the three arrays. -/
theorem hostReg_high {a : Nat} (ha : 0x010 ≤ a) :
    hostReg a =
      if 0x010 ≤ a ∧ a ≤ 0x01F then .fl (a - 0x010)
      else if 0x100 ≤ a ∧ a ≤ 0x1FF then .fb (a - 0x100)
      else if 0x800 ≤ a ∧ a ≤ 0xFFF then .out (a - 0x800)
      else .unmapped := by
  have hfl : (0x010 ≤ a ∧ a < 0x010 + Config.nFL) ↔ (0x010 ≤ a ∧ a ≤ 0x01F) := by simp only [Config.nFL]; omega
  have hfb : (0x100 ≤ a ∧ a < 0x100 + Config.nFB) ↔ (0x100 ≤ a ∧ a ≤ 0x1FF) := by simp only [Config.nFB]; omega
  have hout : (0x800 ≤ a ∧ a < 0x800 + Config.nOUT) ↔ (0x800 ≤ a ∧ a ≤ 0xFFF) := by simp only [Config.nOUT]; omega
  unfold hostReg
  split
  case h_16 => simp only [hfl, hfb, hout]
  all_goals omega

/-- The only address of STATUS. -/
theorem hostReg_eq_status_iff {a : Nat} : hostReg a = .status ↔ a = 1 := by
  by_cases ha : a < 0x010
  · interval_cases a <;> decide
  · rw [hostReg_high (Nat.le_of_not_lt ha)]
    have hne : a ≠ 1 := by omega
    split_ifs <;> simp [hne]

theorem State.hostAccess_read_of_idle {s : State} (hidle : s.busy = false) (a : Nat) :
    s.hostAccess (.read a) = { s with readData := s.hostView (hostReg a) } := by
  obtain ⟨hbusy, -⟩ | ⟨-, hview⟩ := s.hostRead_cases a
  · simp [hidle] at hbusy
  · exact hview

/-- Settles O15: below 0x010 address by address, above it array by array. -/
theorem registerMap : Obligations.RegisterMap := by
  intro s a d hidle
  rw [State.hostAccess_read_of_idle hidle, State.hostAccess_write_of_idle hidle]
  by_cases ha : a < 0x010
  · interval_cases a <;> exact ⟨rfl, rfl⟩
  · rw [hostReg_high (Nat.le_of_not_lt ha)]
    constructor
    · iterate 14 rw [if_neg (show ¬ a = _ by omega)]
      split_ifs <;> rfl
    · iterate 4 rw [if_neg (show ¬ a = _ by omega)]
      split_ifs <;> rfl

/-! ### Accesses to FL and OUT -/

theorem State.writeFL_flWord_same (s : State) (i : Nat) (d : Word) : (s.writeFL i d).flWord i = d := by
  rw [State.writeFL_flWord, if_pos rfl]

theorem State.writeFL_flWord_other (s : State) {i j : Nat} (d : Word) (h : j ≠ i) :
    (s.writeFL i d).flWord j = s.flWord j := by
  rw [State.writeFL_flWord, if_neg h]

/-- Settles O14: the write is `writeFL`, whose reads and frame are the lemmas above. -/
theorem formatListWriteStores : Obligations.FormatListWriteStores := by
  intro s i data hidle hi
  refine ⟨s.writeFL i data, ?_, s.writeFL_flWord_same i data, fun _ hj => s.writeFL_flWord_other data hj, rfl⟩
  rw [State.hostAccess_write_of_idle hidle, hostReg_fl hi]
  rfl

/-- Settles O50: the epilogue leaves the block idle, and OUT reads as the string recorded. -/
theorem outReadsAsTheString : Obligations.OutReadsAsTheString := by
  intro s idx fmt str k hlen hk t
  have hread : t.readData = ((s.recordMatch idx fmt str).outByte k).setWidth 32 := by
    simp only [t]
    rw [State.hostAccess_read_of_idle (State.endOk_busy _ _), hostReg_out hk]
    rfl
  rw [hread, State.recordMatch_outByte]
  refine ⟨fun h => ?_, fun h => ?_, ?_⟩
  · rw [List.getElem?_eq_getElem h]; rfl
  · rw [List.getElem?_eq_none h]; rfl
  · rw [State.hostAccess_read_of_idle (State.endOk_busy _ _)]
    exact Nat.mod_eq_of_lt (hlen.trans_lt (by decide))

/-! ### Accesses while BUSY = 1 (R330) -/

theorem State.hostAccess_write_of_busy {s : State} (hbusy : s.busy = true) (addr : Nat) (data : Word) :
    s.hostAccess (.write addr data) = s := by
  obtain ⟨-, hdropped⟩ | ⟨hidle, -⟩ := s.hostWrite_cases addr data
  · exact hdropped
  · simp [hbusy] at hidle

theorem State.hostAccess_read_open {s : State} (hbusy : s.busy = true) {addr : Nat}
    (hopen : (hostReg addr).openWhileBusy = true) :
    s.hostAccess (.read addr) = { s with readData := Config.busyRead s.draws addr, draws := s.draws + 1 } := by
  obtain ⟨-, -, hread⟩ | ⟨hclosed, -⟩ := s.hostRead_cases addr
  · exact hread
  · simp [hclosed hbusy] at hopen

theorem State.hostAccess_read_closed (s : State) {addr : Nat} (hclosed : (hostReg addr).openWhileBusy = false) :
    s.hostAccess (.read addr) = { s with readData := s.hostView (hostReg addr) } := by
  obtain ⟨-, hopen, -⟩ | ⟨-, hread⟩ := s.hostRead_cases addr
  · simp [hclosed] at hopen
  · exact hread

/-- Every register and array but STATUS is open while BUSY = 1 (U3). -/
theorem openWhileBusy_iff (r : HostReg) : r.openWhileBusy = true ↔ r ≠ .status ∧ r ≠ .unmapped := by
  cases r <;> simp [HostReg.openWhileBusy]

/-- Settles O12: the write is dropped, and a read is of an open register or one of the two others. -/
theorem hostAccessWhileBusy : Obligations.HostAccessWhileBusy := by
  intro s rest addr data hbusy
  have hbusy' : ({ s with inputs := rest } : State).busy = true := hbusy
  refine ⟨fun h => ?_, fun h => ⟨?_, ?_, fun hrecord => ?_⟩, fun h hne hmapped => ?_, fun h hunmapped => ?_⟩
  · rw [step_host h, State.hostAccess_write_of_busy hbusy']
  · rw [step_host h, State.hostAccess_read_closed _ rfl]
    rfl
  · rw [s.status_busy, hbusy]
  · rw [s.status_done]
    obtain ⟨hdone, -⟩ := (recordWf_of_busy hbusy).1 hrecord
    exact hdone
  · rw [step_host h, State.hostAccess_read_open hbusy']
    exact (openWhileBusy_iff _).2 ⟨fun hstatus => hne (hostReg_eq_status_iff.1 hstatus), hmapped⟩
  · rw [step_host h, State.hostAccess_read_closed _ (by rw [hunmapped]; rfl), hunmapped]
    rfl

/-! ### Reset and the first command, and the error registers -/

/-- Settles O16: the fields of the reset state, and nothing listed in its arrays. -/
theorem resetStateValues : Obligations.ResetStateValues :=
  ⟨by decide, rfl, rfl, rfl, rfl, rfl, rfl, rfl, rfl, rfl, rfl, rfl, rfl, rfl, rfl, fun _ => ⟨rfl, rfl, rfl⟩⟩

/-- Settles O18: each command's word, its meaning and its epilogue, evaluated on the reset state. -/
theorem firstCommandAfterReset : Obligations.FirstCommandAfterReset :=
  ⟨rfl, rfl, rfl, rfl, rfl, rfl, rfl, rfl, rfl, rfl, rfl, rfl⟩

/-- Settles O9: what the epilogue of each kind writes. -/
theorem errorCodesAndPayloads : Obligations.ErrorCodesAndPayloads :=
  fun _ _ _ _ => ⟨rfl, rfl, rfl, rfl, rfl, rfl, rfl, rfl, rfl, rfl, rfl⟩

end Sys2Proof.Machine
end
